-- ==== Sys2Proof/Word.lean ====
section
/-! DEFINITION. The word types of the part: bytes on a host port, 16-bit and 32-bit values. -/

namespace Sys2Proof

/-- One byte on a host port (R159). -/
abbrev Byte := BitVec 8

/-- A 16-bit quantity: a lease, a sequence stamp, the slip count, an event's frame field. -/
abbrev Half := BitVec 16

/-- A 32-bit quantity: a queued word, a received word, the idle pattern, the frame counter. -/
abbrev Word := BitVec 32

end Sys2Proof
end

