-- ==== Sys2Proof/Syntax.lean ====
section
/-! DEFINITION. The commands of the part: one constructor per row of spec/opcode_table.json. -/

namespace Sys2Proof

/-- A host, which is also its port: H0 to H3. -/
inductive HostId where
  | h0 | h1 | h2 | h3
deriving DecidableEq, Repr

/-- An edge of the highway bit clock. -/
inductive Edge where
  | rising | falling
deriving DecidableEq, Repr

/-- A block that hands events to the Event Unit (R151, R153): the RSC, the transmit logic, the WS, the FRE. -/
inductive Emitter where
  | rsc | transmit | ws | fre
deriving DecidableEq, Repr

/-- Which of the four parts of a QUERY_HOST response are read at once (R115). -/
structure QueryParts where
  ws   : Bool
  rsc  : Bool
  fre  : Bool
  port : Bool
deriving DecidableEq, Repr

/-- The commands. A host operand names the port or the host the step acts for; the contents of a request are
in the request in progress at the port, which REQUEST_FRAME put there. -/
inductive Instr where
  /-- A status transaction of the port ends after `bits` rising edges of SCKn (R167). -/
  | status (h : HostId) (bits : Nat)
  /-- A collect transaction of the port ends after `bits` rising edges of SCKn (R166). -/
  | collect (h : HostId) (bits : Nat)
  /-- A request transaction ends: the whole bytes the host sent and how many further bits it clocked (R162). -/
  | requestFrame (h : HostId) (bytes : List Byte) (extraBits : Nat)
  /-- The port carries out the ATTACH it has in progress (R168). -/
  | attach (h : HostId)
  /-- The port carries out the DETACH it has in progress (R169). -/
  | detach (h : HostId)
  /-- The port carries out the SET_ATTENTION it has in progress (R172). -/
  | setAttention (h : HostId)
  /-- The RSC takes the request its arbiter grants, a CLAIM (R30). -/
  | claim
  /-- The RSC takes the request its arbiter grants, a RELEASE (R32). -/
  | release
  /-- The RSC takes the request its arbiter grants, a RENEW (R38). -/
  | renew
  /-- The RSC takes the request its arbiter grants, a QUERY_SLOT (R42). -/
  | querySlot
  /-- The FRE takes the port's FORMAT (R78). -/
  | format (h : HostId)
  /-- The FRE takes the port's RUN (R82). -/
  | run (h : HostId)
  /-- The FRE takes the port's HALT (R83). -/
  | halt (h : HostId)
  /-- The FRE takes the port's QUERY_ENGINE (R99). -/
  | queryEngine (h : HostId)
  /-- The WS takes the port's SET_QUOTA (R112). -/
  | setQuota (h : HostId)
  /-- Parts of the port's QUERY_HOST are read, and it is answered once all four are (R114, R115). -/
  | queryHost (h : HostId) (parts : QueryParts)
  /-- The WS takes the port's WRITE_WORDS (R119). -/
  | writeWords (h : HostId)
  /-- The WS takes the port's READ_WORDS (R144). -/
  | readWords (h : HostId)
  /-- The WS takes the port's CLEAR_OVERFLOW (R142). -/
  | clearOverflow (h : HostId)
  /-- The EVU takes the port's NEXT_EVENTS (R155). -/
  | nextEvents (h : HostId)
  /-- The RSC takes the session-end notice of the host (R11). -/
  | rscSessionEnd (h : HostId)
  /-- The WS takes the session-end notice of the host (R110). -/
  | wsSessionEnd (h : HostId)
  /-- The EVU takes the session-end notice of the host (R157). -/
  | evuSessionEnd (h : HostId)
  /-- The FRE takes the session-end notice of the host (R83). -/
  | freSessionEnd (h : HostId)
  /-- The RSC takes a boundary notice and carries out the boundary procedure (R44). -/
  | boundaryProcedure
  /-- The boundary procedure comes to the next record whose lease has run out, and expires it (R50). -/
  | leaseExpiry
  /-- The RSC works out the procedure of a notice awaiting confirmation and hands over the map (R88). -/
  | awaitingConfirmationNotice
  /-- The leader's lead-in ends with the opening boundary of the run (R84). -/
  | leadInEnd
  /-- The rising edge after bit N-1 in leader mode (R87, R92). -/
  | frameBoundary
  /-- The rising edge after bit N-1 in follower mode (R88). -/
  | expectedInstant
  /-- A falling edge at which a frame sync is recognised, with the HRXD sample of that edge (R72). -/
  | frameSync (rxd : Bool)
  /-- The falling edge after bit N-1 at which no frame sync is recognised, with its HFSYNC sample (R89). -/
  | missingSync (hfsync : Bool)
  /-- The slot start of the next slot (R123). -/
  | slotStart
  /-- The slot end of the slot in progress, with the HFSYNC and HRXD samples of that edge (R133). -/
  | slotEnd (hfsync rxd : Bool)
  /-- The WS takes the offer to the host (R138). -/
  | rxOffer (h : HostId)
  /-- The WS takes a loss notice (R105). -/
  | lossNotice
  /-- The WS takes a boundary notice (R143). -/
  | wsBoundaryNotice
  /-- The EVU takes an event of the emitter for the host (R152). -/
  | eventTaken (source : Emitter) (h : HostId)
  /-- The WS takes a flush request for the transmit queue of that identity (R107). -/
  | queueFlush (queue : Nat)
  /-- The WS takes an ending request for the transmit queue of that identity (R108). -/
  | queueEnding (queue : Nat)
  /-- Part reset (R174). -/
  | partReset
  /-- SELn goes low (R160). -/
  | transactionOpening (h : HostId)
  /-- An edge of HBCLK that is no slot start, slot end, sync recognition or boundary (R85). -/
  | bitClock (edge : Edge) (hfsync rxd : Bool)
  /-- REFCLK stops or runs above 50 MHz (R1). -/
  | refclkStop
deriving DecidableEq, Repr

end Sys2Proof
end

