-- ==== Sys2Proof/WellFormed.lean ====
section
/-! DEFINITION. Which commands are well-formed: the shapes of transactions the spec gives (R159, Table 20). -/

namespace Sys2Proof

/-- The shape of a transaction is decided by its first whole byte (R159), and fewer than eight further bits
can follow the last whole byte. A collect transaction has a complete first byte. A QUERY_HOST step reads at
least one part. Every other command is well-formed whatever its operands. -/
def Instr.wellFormed : Instr → Bool
  | .collect _ bits => decide (8 ≤ bits)
  | .requestFrame _ bytes extraBits =>
    match bytes with
    | [] => false
    | kind :: _ => decide (kind ≠ 0x00#8 ∧ kind ≠ 0xFF#8 ∧ extraBits < 8)
  | .queryHost _ parts => parts.ws || parts.rsc || parts.fre || parts.port
  | .status _ _ | .attach _ | .detach _ | .setAttention _ | .claim | .release | .renew | .querySlot
  | .format _ | .run _ | .halt _ | .queryEngine _ | .setQuota _ | .writeWords _ | .readWords _
  | .clearOverflow _ | .nextEvents _ | .rscSessionEnd _ | .wsSessionEnd _ | .evuSessionEnd _
  | .freSessionEnd _ | .boundaryProcedure | .leaseExpiry | .awaitingConfirmationNotice | .leadInEnd
  | .frameBoundary | .expectedInstant | .frameSync _ | .missingSync _ | .slotStart | .slotEnd _ _
  | .rxOffer _ | .lossNotice | .wsBoundaryNotice | .eventTaken _ _ | .queueFlush _ | .queueEnding _
  | .partReset | .transactionOpening _ | .bitClock _ _ _ | .refclkStop => true

end Sys2Proof
end

