-- ==== Sys2Proof/Decode.lean ====
section
/-! DEFINITION. Decoding a word as a command. No row of spec/opcode_table.json gives bits (all 44 rows have an
empty field list), so no word spells a command: the commands of this block are steps, and the bytes of a host's
request frame are read by Machine/Operands.lean. -/

namespace Sys2Proof

/-- The command that a word spells by the table's bits: none, since no row gives bits. -/
def decodeTableWord (_nbits _w : Nat) : Option Instr := none

end Sys2Proof
end

