-- ==== Sys2Proof/Config.lean ====
section
/-! DEFINITION. The fixed quantities of the part (00_scope, Table 4). The spec states a value for every
result, so no free value is declared here. -/

namespace Sys2Proof.Config

/-- The number of Word Store cells (R101). -/
def cells : Nat := 1024

/-- Each host's quota after part reset (R102, R116). -/
def defaultQuota : Nat := 256

/-- The largest quota SET_QUOTA may name (R112). -/
def maxQuota : Nat := 1024

/-- The most claim records a host may have (R14). -/
def maxClaims : Nat := 32

/-- The slots the active slot map has entries for (R16). -/
def mapSlots : Nat := 64

/-- The most slots one CLAIM, RELEASE or RENEW may name (R26, R32, R37). -/
def maxListSlots : Nat := 8

/-- The deepest transmit queue (R26, R117). -/
def maxDepth : Nat := 16

/-- The most entries of one WRITE_WORDS (R120). -/
def maxWriteEntries : Nat := 32

/-- The largest READ_WORDS maximum (R144). -/
def maxReadRecords : Nat := 32

/-- The most events a host's queue holds (R149). -/
def maxEvents : Nat := 16

/-- The largest NEXT_EVENTS maximum (R155). -/
def maxNextEvents : Nat := 8

/-- The largest request payload (R162). -/
def maxPayload : Nat := 240

/-- The largest leader divider D (Table 14). -/
def maxDivider : Nat := 2048

/-- The largest slot count F (Table 14). -/
def maxSlots : Nat := 64

/-- The largest gap G (Table 14). -/
def maxGap : Nat := 15

end Sys2Proof.Config
end

