-- ==== Sys2Proof/Machine/State.lean ====
section
/-! DEFINITION. The state of the part, block by block, and its value after part reset. -/

namespace Sys2Proof.Machine

/-- One value for each host. -/
structure Quad (α : Type) where
  h0 : α
  h1 : α
  h2 : α
  h3 : α
deriving DecidableEq, Repr

/-- The same value for every host. -/
def Quad.all {α : Type} (a : α) : Quad α := ⟨a, a, a, a⟩

/-! ### Host ports (R159 to R175) -/

/-- The state of a port (Table 19). -/
inductive PortState where
  | detached | attached | detaching
deriving DecidableEq, Repr

/-- The request kinds of Table 23 that are framed requests. -/
inductive Kind where
  | attach | detach | setAttention
  | claim | release | renew | querySlot
  | writeWords | readWords | clearOverflow | setQuota | queryHost
  | run | halt | format | queryEngine
  | nextEvents
deriving DecidableEq, Repr

/-- The result codes of Table 24. -/
inductive Result where
  | ok | unknownKind | badArgument | notAttached | state | badSlot | conflict
  | claimLimit | noClaim | releasing | queueFull | noCells | quota | inUse
deriving DecidableEq, Repr

/-- The attention mask: the conditions that drive ATN (R172). -/
structure Mask where
  responseReady : Bool
  eventsPending : Bool
  overflow      : Bool
deriving DecidableEq, Repr

/-- The owners yet to report their part of a session end (R169), which are those that have not yet taken
their session-end notice, since an owner acts and reports in one step. -/
structure Owners where
  rsc : Bool
  ws  : Bool
  evu : Bool
  fre : Bool
deriving DecidableEq, Repr

/-- The receive framer: idle, or in a transaction with the status byte captured at its opening (R160, R162). -/
inductive Framer where
  | idle
  | receiving (status : Byte)
deriving DecidableEq, Repr

/-- The Word Store's part of a QUERY_HOST report (R114, R115). -/
structure WsReport where
  quota     : Nat
  held      : Nat
  txEntries : Nat
  rxRecords : Nat
  latch     : Bool
  resume    : Bool
  drops     : Half
  free      : Nat
  pool      : Nat
deriving DecidableEq, Repr

/-- The RSC's part of a QUERY_HOST report: the host's records counted by state (R114, R115). -/
structure RscReport where
  pendingAdd : Nat
  active     : Nat
  drain      : Nat
  discard    : Nat
deriving DecidableEq, Repr

/-- What QUERY_HOST has read so far (R115). -/
structure HostReport where
  ws   : Option WsReport
  rsc  : Option RscReport
  vote : Option Bool
  port : Option PortState
deriving DecidableEq, Repr

/-- Nothing read yet. -/
def HostReport.empty : HostReport := ⟨none, none, none, none⟩

/-- A request in progress: an accepted frame (R163). `passed` is the model's bookkeeping for the fairness law
of R81 and R105: the other ports the owner has served while this request waits. `report` is what a QUERY_HOST
has read so far. -/
structure Request where
  kind    : Kind
  tag     : Byte
  payload : List Byte
  passed  : List HostId
  report  : HostReport
deriving DecidableEq, Repr

/-- A held response: the kind byte and tag of the request answered, the result, the payload (R165, Table 22). -/
structure Response where
  kind    : Byte
  tag     : Byte
  result  : Result
  payload : List Byte
deriving DecidableEq, Repr

/-- What a port shifted out on SDOn in its last transaction: the whole bytes, and the bits of a byte cut
short, first bit first. -/
structure Sdo where
  bytes : List Byte
  tail  : List Bool
deriving DecidableEq, Repr

/-- The state of one Host Port Controller (10, "Each HPC holds the following state"), its select input and
its outputs. -/
structure Port where
  state      : PortState
  session    : Byte
  framer     : Framer
  inProgress : Option Request
  held       : Option Response
  dropped    : Bool
  frameError : Bool
  mask       : Mask
  toReport   : Owners
  /-- ATNn is asserted (driven low). -/
  atn        : Bool
  /-- SELn is low. -/
  selLow     : Bool
  /-- The level the port drives on SDOn; none is high impedance (R159, R174). -/
  sdoLine    : Option Bool
  /-- What the last transaction sent (log 26). -/
  sdo        : Sdo
deriving DecidableEq, Repr

/-! ### Reservation Controller (R2 to R63) -/

/-- The role of a claim. -/
inductive Role where
  | talk | listen
deriving DecidableEq, Repr

/-- The release mode of a record in PENDING_RELEASE (R9). -/
inductive ReleaseMode where
  | discard | drain
deriving DecidableEq, Repr

/-- The state of a claim record, with its release mode in PENDING_RELEASE (R7). -/
inductive RecState where
  | pendingAdd
  | active
  | pendingRelease (mode : ReleaseMode)
deriving DecidableEq, Repr

/-- What a talker sends when its queue is empty (R125). -/
inductive FillPolicy where
  | repeatLast | silent | pattern
deriving DecidableEq, Repr

/-- The fields a TALK record has beyond those of a LISTEN record (Table 8). -/
structure TalkPart where
  fill      : FillPolicy
  depth     : Nat
  autoRenew : Bool
  lastWord  : Option Word
  underruns : Byte
  reported  : Bool
deriving DecidableEq, Repr

/-- The role of a record with the fields that only a TALK record has. -/
inductive RecBody where
  | talk (t : TalkPart)
  | listen
deriving DecidableEq, Repr

/-- A claim record (Table 8). `id` is the model's own identity of the record: it names the record in the map
and names its transmit queue (log 9). -/
structure ClaimRec where
  id        : Nat
  host      : HostId
  slot      : Nat
  body      : RecBody
  state     : RecState
  lease     : Half
  remaining : Option Half
  seq       : Half
  session   : Byte
deriving DecidableEq, Repr

/-- One entry of the active slot map: the talker record and the listener records of the slot (R16). -/
structure MapEntry where
  talker    : Option Nat
  listeners : List Nat
deriving DecidableEq, Repr

/-- The entry of a slot with no talker and no listener. -/
def MapEntry.empty : MapEntry := ⟨none, []⟩

/-- A request of the RSC to the WS for one transmit queue (R105, R107, R108). -/
inductive QueueAsk where
  | flush (queue : Nat)
  | ending (queue : Nat)
deriving DecidableEq, Repr

/-- The engine states (R81). -/
inductive EngineState where
  | stopped | acquiring | running | stopping
deriving DecidableEq, Repr

/-- Why a claim ended (R151). -/
inductive EndReason where
  | released | expired
deriving DecidableEq, Repr

/-- The kind of an event with the fields present for it (R150, R151). -/
inductive EventBody where
  | adopted (slot : Nat) (role : Role)
  | ended (slot : Nat) (role : Role) (reason : EndReason)
  | talkerChanged (slot : Nat) (talker : Option HostId)
  | underrun (slot : Nat)
  | rxOverflow
  | engine (state : EngineState)
deriving DecidableEq, Repr

/-- An event record (R150). -/
structure Event where
  body  : EventBody
  frame : Half
deriving DecidableEq, Repr

/-- What a boundary procedure comes to (R44): the store and the map it leaves, the events it queues, in the
order they reach the Event Unit, and the flushes and endings it asks of the WS. -/
structure BoundaryResult where
  records : List ClaimRec
  map     : List MapEntry
  events  : List (HostId × Event)
  asks    : List QueueAsk
deriving DecidableEq, Repr

/-- A listener host of a slot: a host with a LISTEN record on it when a boundary procedure begins (R45). -/
structure ListenerHost where
  slot : Nat
  host : HostId
deriving DecidableEq, Repr

/-- A boundary procedure in progress, its removal done and its lease step under way: the frame number of its
notice, the listener hosts it fixed (R45), and how many records of the store the lease step has passed. -/
structure Procedure where
  frame     : Word
  listeners : List ListenerHost
  visited   : Nat
deriving DecidableEq, Repr

/-- A notice awaiting confirmation (R88): sent, or taken by the RSC with the procedure worked out. -/
inductive Awaiting where
  | sent (frame : Word)
  | worked (frame : Word) (result : BoundaryResult)
deriving DecidableEq, Repr

/-- The Reservation Controller. -/
structure Rsc where
  records  : List ClaimRec
  map      : List MapEntry
  seq      : Half
  /-- The port served last (R20). -/
  pointer  : HostId
  /-- Boundary notices not yet taken, oldest first (R44). -/
  notices  : List Word
  proc     : Option Procedure
  awaiting : Option Awaiting
  /-- The identity the next record takes (the model's own counter). -/
  nextId   : Nat
deriving DecidableEq, Repr

/-! ### Frame Engine, Transmit Path and Receive Path (R64 to R148) -/

/-- The shape of the emitted frame sync (R70). -/
inductive SyncStyle where
  | bit | word
deriving DecidableEq, Repr

/-- Whether the part drives or follows the highway's timing. -/
inductive Mode where
  | leader | follower
deriving DecidableEq, Repr

/-- The format record (Table 14). -/
structure Format where
  slots : Nat
  width : Nat
  gap   : Nat
  sync  : SyncStyle
  mode  : Mode
  div   : Nat
  idle  : Word
deriving DecidableEq, Repr

/-- The defaults of Table 14 (R64). -/
def Format.default : Format := ⟨32, 16, 0, .bit, .follower, 8, 0#32⟩

/-- What the part sent in the slot in progress (R124). -/
inductive Account where
  | sentQueued (word : Word)
  | sentFill (word : Word)
  | notSent
deriving DecidableEq, Repr

/-- A write to a talker's traffic fields (R5): a word was sent, or an underrun counted. -/
inductive Traffic where
  | wordSent (record : Nat) (word : Word)
  | underrun (record : Nat)
deriving DecidableEq, Repr

/-- The Frame Engine, with what the Transmit Path and the Receive Path hold. -/
structure Fre where
  engine      : EngineState
  /-- The engine is RUNNING in the lead-in before its first frame (R84). -/
  leadIn      : Bool
  votes       : Quad Bool
  fmt         : Format
  inUse       : Format
  bitPos      : Nat
  /-- The bit clock stands high: its last edge was a rising edge. -/
  clkHigh     : Bool
  /-- Slot 0's start is still to be taken at the edge that opened the frame (R67, R88). -/
  slot0Due    : Bool
  acq         : Option Nat
  prevSync    : Option Bool
  frame       : Word
  slip        : Half
  txWord      : Option Word
  rxWord      : Option Word
  account     : Option Account
  /-- Slot 0's traffic write that waits for the confirmation of the boundary (R88). -/
  provisional : Option Traffic
  /-- The frame number the Receive Path holds (R136). -/
  rpFrame     : Word
  /-- HBCLK as the part drives it; none is high impedance. -/
  hbclk       : Option Bool
  /-- HFSYNC as the part drives it; none is high impedance. -/
  hfsync      : Option Bool
  /-- HTXD; none is high impedance. -/
  htxd        : Option Bool
  htxen       : Bool
deriving DecidableEq, Repr

/-! ### Word Store (R101 to R148) -/

/-- A transmit entry (R118). -/
inductive TxEntry where
  | word (w : Word)
  | silence
deriving DecidableEq, Repr

/-- A transmit queue: the record it belongs to, its owner, its depth and its entries, oldest first (R106). -/
structure TxQueue where
  id      : Nat
  owner   : HostId
  depth   : Nat
  entries : List TxEntry
deriving DecidableEq, Repr

/-- A receive record (R135). -/
structure RxRecord where
  slot : Nat
  tag  : Byte
  word : Word
  self : Bool
  fill : Bool
  gap  : Bool
deriving DecidableEq, Repr

/-- A slot's word offered to one listener (R137). -/
structure Offer where
  host  : HostId
  slot  : Nat
  frame : Word
  word  : Word
  self  : Bool
  fill  : Bool
deriving DecidableEq, Repr

/-- What the FRE hands the WS, taken in the order handed over (R105, R139, R143). -/
inductive FreWork where
  /-- The offers of one slot end not yet taken. -/
  | offers (os : List Offer)
  | boundary
  | loss (hosts : List HostId)
deriving DecidableEq, Repr

/-- What the WS holds for one host. -/
structure WsHost where
  quota  : Nat
  held   : Nat
  rxq    : List RxRecord
  latch  : Bool
  resume : Bool
  gap    : Bool
  drops  : Half
deriving DecidableEq, Repr

/-- The Word Store. -/
structure Ws where
  free    : Nat
  hosts   : Quad WsHost
  queues  : List TxQueue
  asks    : List QueueAsk
  fromFre : List FreWork
deriving DecidableEq, Repr

/-! ### Event Unit (R149 to R158) -/

/-- A host's event queue and its EVENTS_LOST flag. -/
structure EvQueue where
  events : List Event
  lost   : Bool
deriving DecidableEq, Repr

/-- The Event Unit, with the events each emitter has handed over and the EVU has not yet taken. -/
structure Evu where
  queues       : Quad EvQueue
  fromRsc      : List (HostId × Event)
  fromTransmit : List (HostId × Event)
  fromWs       : List (HostId × Event)
  fromFre      : List (HostId × Event)
deriving DecidableEq, Repr

/-! ### The whole part -/

/-- The state of the part, with the queue of commands that wait. -/
structure State where
  ports   : Quad Port
  rsc     : Rsc
  fre     : Fre
  ws      : Ws
  evu     : Evu
  pending : List Instr
deriving DecidableEq, Repr

/-- Why the part stops. -/
inductive Fault where
  /-- REFCLK_STOP: what the part does while REFCLK is stopped or runs above 50 MHz is not specified (R1).
  Raised by that command alone. Safe: nothing is claimed of the part from there on. -/
  | refclkStopped
deriving DecidableEq, Repr

/-- Why a command has no meaning in this model. -/
inductive Refusal where
  /-- The command of that mnemonic is not modelled. No arm of exec raises it. Safe. -/
  | notModelled (mnemonic : String)
deriving DecidableEq, Repr

/-- A port after part reset (R174). -/
def Port.reset : Port :=
  { state := .detached, session := 0#8, framer := .idle, inProgress := none, held := none,
    dropped := false, frameError := false, mask := ⟨false, false, false⟩,
    toReport := ⟨false, false, false, false⟩, atn := false, selLow := false,
    sdoLine := none, sdo := ⟨[], []⟩ }

/-- The RSC after part reset (R19, R20). -/
def Rsc.reset : Rsc :=
  { records := [], map := List.replicate Config.mapSlots MapEntry.empty, seq := 0#16, pointer := .h3,
    notices := [], proc := none, awaiting := none, nextId := 0 }

/-- The FRE after part reset (R100, R132, R148). -/
def Fre.reset : Fre :=
  { engine := .stopped, leadIn := false, votes := Quad.all false, fmt := Format.default,
    inUse := Format.default, bitPos := 0, clkHigh := false, slot0Due := false, acq := none,
    prevSync := none, frame := 0#32, slip := 0#16, txWord := none, rxWord := none, account := none,
    provisional := none, rpFrame := 0#32, hbclk := none, hfsync := none, htxd := none, htxen := false }

/-- A host's part of the WS after part reset (R116, R148). -/
def WsHost.reset : WsHost :=
  { quota := Config.defaultQuota, held := 0, rxq := [], latch := false, resume := false, gap := false,
    drops := 0#16 }

/-- The WS after part reset (R116). -/
def Ws.reset : Ws :=
  { free := Config.cells, hosts := Quad.all WsHost.reset, queues := [], asks := [], fromFre := [] }

/-- The EVU after part reset (R158). -/
def Evu.reset : Evu :=
  { queues := Quad.all ⟨[], false⟩, fromRsc := [], fromTransmit := [], fromWs := [], fromFre := [] }

/-- The part right after part reset, with no command waiting. -/
def State.reset : State :=
  { ports := Quad.all Port.reset, rsc := Rsc.reset, fre := Fre.reset, ws := Ws.reset, evu := Evu.reset,
    pending := [] }

end Sys2Proof.Machine
end

