-- ==== Sys2Proof/Machine/Operands.lean ====
section
/-! DEFINITION. The operands of requests: the bytes of request frames and payloads read as fields
(11_message_and_record_formats: R176 to R180, Tables 21, 23, 25, 26). -/

namespace Sys2Proof.Machine

/-! ### Bytes and fields (R176: most significant byte first) -/

/-- A 16-bit field from its two bytes. -/
def half (hi lo : Byte) : Half := hi ++ lo

/-- A 32-bit field from its four bytes. -/
def word (b3 b2 b1 b0 : Byte) : Word := b3 ++ b2 ++ b1 ++ b0

/-- The two bytes of a 16-bit field. -/
def be16 (x : Half) : List Byte := [x.extractLsb' 8 8, x.extractLsb' 0 8]

/-- The four bytes of a 32-bit field. -/
def be32 (x : Word) : List Byte :=
  [x.extractLsb' 24 8, x.extractLsb' 16 8, x.extractLsb' 8 8, x.extractLsb' 0 8]

/-- A count as one byte. -/
def nat8 (n : Nat) : Byte := BitVec.ofNat 8 n

/-- A count as a two-byte field. -/
def nat16 (n : Nat) : List Byte := be16 (BitVec.ofNat 16 n)

/-- A yes-or-no field (R176). -/
def yesNo (b : Bool) : Byte := if b then 0x01#8 else 0x00#8

/-- A host number (R176). -/
def hostCode : HostId → Byte
  | .h0 => 0x00#8 | .h1 => 0x01#8 | .h2 => 0x02#8 | .h3 => 0x03#8

/-- The host a byte names (R114: a value outside H0 to H3 names none). -/
def hostOfByte (b : Byte) : Option HostId :=
  if b = 0x00#8 then some .h0 else if b = 0x01#8 then some .h1
  else if b = 0x02#8 then some .h2 else if b = 0x03#8 then some .h3 else none

/-! ### Kinds (Table 23) -/

/-- The kind code of a request. -/
def Kind.code : Kind → Byte
  | .attach => 0x01#8 | .detach => 0x02#8 | .setAttention => 0x03#8
  | .claim => 0x10#8 | .release => 0x11#8 | .renew => 0x12#8 | .querySlot => 0x13#8
  | .writeWords => 0x20#8 | .readWords => 0x21#8 | .clearOverflow => 0x22#8
  | .setQuota => 0x23#8 | .queryHost => 0x24#8
  | .run => 0x30#8 | .halt => 0x31#8 | .format => 0x32#8 | .queryEngine => 0x33#8
  | .nextEvents => 0x40#8

/-- Every kind that can stand in a request frame. -/
def Kind.list : List Kind :=
  [.attach, .detach, .setAttention, .claim, .release, .renew, .querySlot, .writeWords, .readWords,
   .clearOverflow, .setQuota, .queryHost, .run, .halt, .format, .queryEngine, .nextEvents]

/-- The kind a byte codes, none for an unknown kind (R178). -/
def Kind.ofByte (b : Byte) : Option Kind := Kind.list.find? fun k => decide (k.code = b)

/-- The block that owns a request of the kind (R164, routing). -/
inductive Owner where
  | port | rsc | ws | fre | evu
deriving DecidableEq, Repr

/-- Routing by kind alone (R164). -/
def Kind.owner : Kind → Owner
  | .attach | .detach | .setAttention => .port
  | .claim | .release | .renew | .querySlot => .rsc
  | .writeWords | .readWords | .clearOverflow | .setQuota | .queryHost => .ws
  | .format | .run | .halt | .queryEngine => .fre
  | .nextEvents => .evu

/-- The kinds passed on from a DETACHED port (R164, R20). -/
def Kind.passedDetached : Kind → Bool
  | .attach | .querySlot | .queryHost | .queryEngine => true
  | .detach | .setAttention | .claim | .release | .renew | .writeWords | .readWords | .clearOverflow
  | .setQuota | .run | .halt | .format | .nextEvents => false

/-! ### The CRC-8 and the request frame (R162, R177, Table 21) -/

/-- Shift `n` bits out of the remainder, with the generator x^8 + x^2 + x + 1 (R177). -/
def crcShift : Nat → Byte → Byte
  | 0, r => r
  | n + 1, r => crcShift n (if r.msb then (r <<< 1) ^^^ 0x07#8 else r <<< 1)

/-- The CRC-8 of a byte string (R177). -/
def crc8 (bytes : List Byte) : Byte := bytes.foldl (fun r b => crcShift 8 (r ^^^ b)) 0x00#8

/-- The fields of a well-formed request frame. -/
structure Frame where
  kind    : Byte
  tag     : Byte
  payload : List Byte
deriving DecidableEq, Repr

/-- The framer's judgement at the end of a request transaction (R162): the frame, or none where it is
discarded with FRAME_ERROR: P above 240, the transaction ended before the last bit of the CRC byte, a bit
clocked in after it, or a wrong CRC. -/
def parseFrame (bytes : List Byte) (extraBits : Nat) : Option Frame :=
  match bytes with
  | kind :: tag :: p :: rest =>
    if p.toNat ≤ Config.maxPayload ∧ rest.length = p.toNat + 1 ∧ extraBits = 0 ∧
        rest.getLast? = some (crc8 (kind :: tag :: p :: rest.dropLast))
    then some ⟨kind, tag, rest.dropLast⟩
    else none
  | _ => none

/-! ### Enumerated fields (Table 25, R180: only the listed values are valid) -/

/-- The role byte. -/
def Role.ofByte (b : Byte) : Option Role :=
  if b = 0x00#8 then some .talk else if b = 0x01#8 then some .listen else none

/-- The release mode byte. -/
def ReleaseMode.ofByte (b : Byte) : Option ReleaseMode :=
  if b = 0x00#8 then some .discard else if b = 0x01#8 then some .drain else none

/-- The fill policy byte. -/
def FillPolicy.ofByte (b : Byte) : Option FillPolicy :=
  if b = 0x00#8 then some .repeatLast else if b = 0x01#8 then some .silent
  else if b = 0x02#8 then some .pattern else none

/-- A yes-or-no byte of a request. -/
def yesNoOfByte (b : Byte) : Option Bool :=
  if b = 0x00#8 then some false else if b = 0x01#8 then some true else none

/-- The sync style byte. -/
def SyncStyle.ofByte (b : Byte) : Option SyncStyle :=
  if b = 0x00#8 then some .bit else if b = 0x01#8 then some .word else none

/-- The mode byte. -/
def Mode.ofByte (b : Byte) : Option Mode :=
  if b = 0x00#8 then some .leader else if b = 0x01#8 then some .follower else none

/-! ### Request payloads (Table 26) -/

/-- The payload that holds exactly one byte (R179). -/
def oneByte : List Byte → Option Byte
  | [b] => some b
  | _ => none

/-- A slot list counted by `n`: 1 to 8 slots, and exactly as many bytes (R26, R32, R37, R179). -/
def slotList (n : Byte) (rest : List Byte) : Option (List Nat) :=
  if 1 ≤ n.toNat ∧ n.toNat ≤ Config.maxListSlots ∧ rest.length = n.toNat
  then some (rest.map BitVec.toNat) else none

/-- What a CLAIM names: the body its records are created with (R2), the lease and the slots. -/
structure ClaimArgs where
  body  : RecBody
  lease : Half
  slots : List Nat
deriving DecidableEq, Repr

/-- The body of a new TALK record (R2): the fields named in the request, the traffic fields at their values
of creation. -/
def newTalk (fill : FillPolicy) (depth : Nat) (autoRenew : Bool) : RecBody :=
  .talk { fill := fill, depth := depth, autoRenew := autoRenew, lastWord := none, underruns := 0#8,
          reported := false }

/-- The payload of CLAIM; none is BAD_ARGUMENT with failing index "none" (R26). The fill, depth and auto-renew
bytes of a LISTEN claim are not examined. -/
def parseClaim : List Byte → Option ClaimArgs
  | role :: l1 :: l0 :: fill :: depth :: renew :: n :: rest =>
    match Role.ofByte role, slotList n rest with
    | some .talk, some slots =>
      match FillPolicy.ofByte fill, yesNoOfByte renew with
      | some f, some a =>
        if 1 ≤ depth.toNat ∧ depth.toNat ≤ Config.maxDepth
        then some ⟨newTalk f depth.toNat a, half l1 l0, slots⟩ else none
      | _, _ => none
    | some .listen, some slots => some ⟨.listen, half l1 l0, slots⟩
    | _, _ => none
  | _ => none

/-- What a RELEASE names. -/
structure ReleaseArgs where
  role  : Role
  mode  : ReleaseMode
  slots : List Nat
deriving DecidableEq, Repr

/-- The payload of RELEASE; none is BAD_ARGUMENT with failing index "none" (R32). -/
def parseRelease : List Byte → Option ReleaseArgs
  | role :: mode :: n :: rest =>
    match Role.ofByte role, ReleaseMode.ofByte mode, slotList n rest with
    | some r, some m, some slots => some ⟨r, m, slots⟩
    | _, _, _ => none
  | _ => none

/-- The payload of RENEW; none is BAD_ARGUMENT with failing index "none" (R37). -/
def parseRenew : List Byte → Option (Role × List Nat)
  | role :: n :: rest =>
    match Role.ofByte role, slotList n rest with
    | some r, some slots => some (r, slots)
    | _, _ => none
  | _ => none

/-- The lowest index, counted from `i`, whose slot also stands at an earlier index (R25); `seen` holds the
slots before it. -/
def repeatFrom (seen : List Nat) (i : Nat) : List Nat → Option Nat
  | [] => none
  | x :: xs => if x ∈ seen then some i else repeatFrom (x :: seen) (i + 1) xs

/-- The failing index of a repeated slot (R25). -/
def firstRepeat (slots : List Nat) : Option Nat := repeatFrom [] 0 slots

/-- The entries of a WRITE_WORDS, five bytes each (Table 26); the word bytes of a SILENCE entry are not
examined (R180). -/
def parseEntries : Nat → List Byte → Option (List TxEntry)
  | 0, [] => some []
  | n + 1, kind :: b3 :: b2 :: b1 :: b0 :: rest =>
    match parseEntries n rest with
    | some es =>
      if kind = 0x01#8 then some (.word (word b3 b2 b1 b0) :: es)
      else if kind = 0x02#8 then some (.silence :: es)
      else none
    | none => none
  | _, _ => none

/-- The payload of WRITE_WORDS; none is BAD_ARGUMENT (R120, check 1). -/
def parseWrite : List Byte → Option (Nat × List TxEntry)
  | slot :: n :: rest =>
    if 1 ≤ n.toNat ∧ n.toNat ≤ Config.maxWriteEntries then
      match parseEntries n.toNat rest with
      | some es => some (slot.toNat, es)
      | none => none
    else none
  | _ => none

/-- A one-byte maximum from 1 to `top` (R144, R155). -/
def parseMaximum (top : Nat) (payload : List Byte) : Option Nat :=
  match oneByte payload with
  | some b => if 1 ≤ b.toNat ∧ b.toNat ≤ top then some b.toNat else none
  | none => none

/-- The payload of SET_QUOTA: 0 to 1024 cells (R112, check 1). -/
def parseQuota : List Byte → Option Nat
  | [b1, b0] => if (half b1 b0).toNat ≤ Config.maxQuota then some (half b1 b0).toNat else none
  | _ => none

/-- The payload of QUERY_HOST (R114). -/
def parseHost (payload : List Byte) : Option HostId := (oneByte payload).bind hostOfByte

/-- The payload of SET_ATTENTION: bits 5, 4 and 3 of the mask byte; the others are reserved (Table 26). -/
def parseMask (payload : List Byte) : Option Mask :=
  (oneByte payload).map fun b => ⟨b.getLsbD 5, b.getLsbD 4, b.getLsbD 3⟩

/-- The payload of FORMAT; none is BAD_ARGUMENT (R78). -/
def parseFormat : List Byte → Option Format
  | [f, w, g, sync, mode, d1, d0, i3, i2, i1, i0] =>
    match SyncStyle.ofByte sync, Mode.ofByte mode with
    | some s, some m =>
      if 2 ≤ f.toNat ∧ f.toNat ≤ Config.maxSlots ∧
          (w.toNat = 8 ∨ w.toNat = 16 ∨ w.toNat = 24 ∨ w.toNat = 32) ∧ g.toNat ≤ Config.maxGap ∧
          1 ≤ (half d1 d0).toNat ∧ (half d1 d0).toNat ≤ Config.maxDivider
      then some ⟨f.toNat, w.toNat, g.toNat, s, m, (half d1 d0).toNat, word i3 i2 i1 i0⟩
      else none
    | _, _ => none
  | _ => none

end Sys2Proof.Machine
end

