-- ==== Sys2Proof/Machine/Flags.lean ====
section
/-! DEFINITION. Flag computations: the status byte, the flags bytes and set bytes of responses, and the ATN
condition (R160, R173, R176, Tables 27, 29, 30, 31). -/

namespace Sys2Proof.Machine

/-- Bit `i` of a byte set as `b` says, the others clear. -/
def bitAt (b : Bool) (i : Nat) : Byte := if b then 0x01#8 <<< i else 0x00#8

/-- The status byte (R160): ATTACHED, BUSY, RESPONSE_READY, EVENTS_PENDING, OVERFLOW, DROPPED, FRAME_ERROR,
ENGINE_RUNNING from bit 7 down. -/
def statusByte (p : Port) (eventsPending overflow engineRunning : Bool) : Byte :=
  bitAt (decide (p.state = .attached)) 7 ||| bitAt p.inProgress.isSome 6 ||| bitAt p.held.isSome 5 |||
  bitAt eventsPending 4 ||| bitAt overflow 3 ||| bitAt p.dropped 2 ||| bitAt p.frameError 1 |||
  bitAt engineRunning 0

/-- The status byte shows RESPONSE_READY. -/
def showsResponse (status : Byte) : Bool := status.getLsbD 5

/-- The status byte shows DROPPED. -/
def showsDropped (status : Byte) : Bool := status.getLsbD 2

/-- The status byte shows FRAME_ERROR. -/
def showsFrameError (status : Byte) : Bool := status.getLsbD 1

/-- The engine counts as running for the ENGINE_RUNNING bit (R81, R160). -/
def EngineState.isRunning : EngineState → Bool
  | .running | .stopping => true
  | .stopped | .acquiring => false

/-- At least one condition of the mask holds (R173). -/
def attention (m : Mask) (responseReady eventsPending overflow : Bool) : Bool :=
  (m.responseReady && responseReady) || (m.eventsPending && eventsPending) || (m.overflow && overflow)

/-- The mask byte of a SET_ATTENTION response: bits other than 5, 4 and 3 sent as 0 (Table 26). -/
def maskByte (m : Mask) : Byte :=
  bitAt m.responseReady 5 ||| bitAt m.eventsPending 4 ||| bitAt m.overflow 3

/-- A set of hosts as a byte (R176). -/
def hostSetByte (v : Quad Bool) : Byte :=
  bitAt v.h0 0 ||| bitAt v.h1 1 ||| bitAt v.h2 2 ||| bitAt v.h3 3

/-- The flags byte of a talker summary (Table 29). -/
def talkerFlags (remaining lastWord reported autoRenew : Bool) : Byte :=
  bitAt remaining 0 ||| bitAt lastWord 1 ||| bitAt reported 2 ||| bitAt autoRenew 3

/-- The flags byte of a receive record (Table 31). -/
def recordFlags (self fill gap : Bool) : Byte := bitAt self 0 ||| bitAt fill 1 ||| bitAt gap 2

/-- The flags byte of a QUERY_HOST response (Table 30). -/
def hostFlags (latch resume : Bool) : Byte := bitAt latch 0 ||| bitAt resume 1

end Sys2Proof.Machine
end

