-- ==== Sys2Proof/Machine/Formats.lean ====
section
/-! DEFINITION. The bytes the part sends: response frames, response payloads and the records in them
(R176, R177, R181, R182, Tables 22, 24, 25, 27 to 33). -/

namespace Sys2Proof.Machine

/-- The result code (Table 24). -/
def Result.code : Result → Byte
  | .ok => 0x00#8 | .unknownKind => 0x01#8 | .badArgument => 0x02#8 | .notAttached => 0x03#8
  | .state => 0x04#8 | .badSlot => 0x05#8 | .conflict => 0x06#8 | .claimLimit => 0x07#8
  | .noClaim => 0x08#8 | .releasing => 0x09#8 | .queueFull => 0x0A#8 | .noCells => 0x0B#8
  | .quota => 0x0C#8 | .inUse => 0x0D#8

/-- A response frame without its CRC byte (Table 22). -/
def responseBody (r : Response) : List Byte :=
  r.kind :: r.tag :: r.result.code :: nat8 r.payload.length :: r.payload

/-- A response frame (Table 22). -/
def responseFrame (r : Response) : List Byte := responseBody r ++ [crc8 (responseBody r)]

/-- The first `n` bits of a byte, most significant first (R159). -/
def firstBits (b : Byte) (n : Nat) : List Bool := (List.range n).map fun i => b.getLsbD (7 - i)

/-- What goes out on SDOn when `bits` bits are clocked of a byte stream that goes on with 0x00 (R159). -/
def shiftOut (stream : List Byte) (bits : Nat) : Sdo :=
  let whole := bits / 8
  { bytes := stream.take whole ++ List.replicate (whole - stream.length) 0x00#8
    tail := firstBits (stream.getD whole 0x00#8) (bits % 8) }

/-! ### Codes of enumerated values (Table 25) -/

/-- The role code. -/
def Role.code : Role → Byte
  | .talk => 0x00#8 | .listen => 0x01#8

/-- The record state code, which carries the release mode too. -/
def RecState.code : RecState → Byte
  | .pendingAdd => 0x00#8 | .active => 0x01#8
  | .pendingRelease .discard => 0x02#8 | .pendingRelease .drain => 0x03#8

/-- The fill policy code. -/
def FillPolicy.code : FillPolicy → Byte
  | .repeatLast => 0x00#8 | .silent => 0x01#8 | .pattern => 0x02#8

/-- The sync style code. -/
def SyncStyle.code : SyncStyle → Byte
  | .bit => 0x00#8 | .word => 0x01#8

/-- The mode code. -/
def Mode.code : Mode → Byte
  | .leader => 0x00#8 | .follower => 0x01#8

/-- The engine state code. -/
def EngineState.code : EngineState → Byte
  | .stopped => 0x00#8 | .acquiring => 0x01#8 | .running => 0x02#8 | .stopping => 0x03#8

/-- The port state code. -/
def PortState.code : PortState → Byte
  | .detached => 0x00#8 | .attached => 0x01#8 | .detaching => 0x02#8

/-! ### Records and payloads -/

/-- A receive record as sent (Table 31). -/
def RxRecord.encode (r : RxRecord) : List Byte :=
  nat8 r.slot :: r.tag :: recordFlags r.self r.fill r.gap :: be32 r.word

/-- The slot byte of an event, 0xFF when absent (R182). -/
def EventBody.slotByte : EventBody → Byte
  | .adopted s _ | .ended s _ _ | .talkerChanged s _ | .underrun s => nat8 s
  | .rxOverflow | .engine _ => 0xFF#8

/-- The role byte of an event, 0xFF when absent (R182). -/
def EventBody.roleByte : EventBody → Byte
  | .adopted _ r | .ended _ r _ => r.code
  | .talkerChanged _ _ | .underrun _ => Role.talk.code
  | .rxOverflow | .engine _ => 0xFF#8

/-- The detail byte of an event, 0xFF when absent (Table 33, R182). -/
def EventBody.detailByte : EventBody → Byte
  | .ended _ _ .released => 0x00#8
  | .ended _ _ .expired => 0x01#8
  | .talkerChanged _ (some h) => hostCode h
  | .talkerChanged _ none => 0x04#8
  | .engine st => st.code
  | .adopted _ _ | .underrun _ | .rxOverflow => 0xFF#8

/-- The kind byte of an event (Table 32). -/
def EventBody.kindByte : EventBody → Byte
  | .adopted _ _ => 0x01#8 | .ended _ _ _ => 0x02#8 | .talkerChanged _ _ => 0x03#8
  | .underrun _ => 0x04#8 | .rxOverflow => 0x05#8 | .engine _ => 0x06#8

/-- An event record as sent (Table 32). -/
def Event.encode (e : Event) : List Byte :=
  [e.body.kindByte, e.body.slotByte, e.body.roleByte, e.body.detailByte] ++ be16 e.frame

/-- The format record as sent, laid out as the FORMAT payload (Table 27). -/
def Format.encode (f : Format) : List Byte :=
  [nat8 f.slots, nat8 f.width, nat8 f.gap, f.sync.code, f.mode.code] ++ nat16 f.div ++ be32 f.idle

/-- A talker summary (Table 29); `queued` is the number of entries in the record's queue. -/
def talkerSummary (r : ClaimRec) (t : TalkPart) (queued : Nat) : List Byte :=
  [hostCode r.host, r.state.code,
   talkerFlags r.remaining.isSome t.lastWord.isSome t.reported t.autoRenew] ++
  be16 r.lease ++ be16 (r.remaining.getD 0#16) ++ be16 r.seq ++
  [r.session, t.fill.code, nat8 t.depth, nat8 queued] ++ be32 (t.lastWord.getD 0#32) ++ [t.underruns]

/-- A listener entry (Table 29). -/
def listenerEntry (r : ClaimRec) : List Byte :=
  [hostCode r.host, r.state.code, bitAt r.remaining.isSome 0] ++
  be16 r.lease ++ be16 (r.remaining.getD 0#16) ++ be16 r.seq ++ [r.session]

/-- The payload of an OK QUERY_HOST (Table 30). -/
def hostPayload (w : WsReport) (r : RscReport) (vote : Bool) (p : PortState) : List Byte :=
  [p.code, yesNo vote] ++ nat16 w.quota ++ nat16 w.held ++ nat16 w.txEntries ++ nat16 w.rxRecords ++
  [hostFlags w.latch w.resume] ++ be16 w.drops ++ nat16 w.free ++ nat16 w.pool ++
  [nat8 r.pendingAdd, nat8 r.active, nat8 r.drain, nat8 r.discard]

/-- The failing index of a refused CLAIM, RELEASE or RENEW, 0xFF for "none" (Table 28). -/
def indexByte : Option Nat → List Byte
  | some i => [nat8 i]
  | none => [0xFF#8]

end Sys2Proof.Machine
end

