-- ==== Sys2Proof/Machine/Ops.lean ====
section
/-! DEFINITION. The named operations over the state that the meanings share: the ports, the arbiter and the
claim store, the cell pool and the transmit queues, the hand-over of events, session-end reports. -/

namespace Sys2Proof.Machine

/-! ### Hosts -/

/-- The four hosts in order. -/
def hostList : List HostId := [.h0, .h1, .h2, .h3]

/-- The value of a host. -/
def Quad.get {α : Type} (q : Quad α) : HostId → α
  | .h0 => q.h0 | .h1 => q.h1 | .h2 => q.h2 | .h3 => q.h3

/-- The value of a host replaced. -/
def Quad.set {α : Type} (q : Quad α) (h : HostId) (a : α) : Quad α :=
  match h with
  | .h0 => { q with h0 := a } | .h1 => { q with h1 := a }
  | .h2 => { q with h2 := a } | .h3 => { q with h3 := a }

/-- Every host's value changed by a function of the host and the value. -/
def Quad.mapHosts {α β : Type} (q : Quad α) (f : HostId → α → β) : Quad β :=
  ⟨f .h0 q.h0, f .h1 q.h1, f .h2 q.h2, f .h3 q.h3⟩

/-- The host after `h` in the circular order of the arbiter (R21). -/
def nextHost : HostId → HostId
  | .h0 => .h1 | .h1 => .h2 | .h2 => .h3 | .h3 => .h0

/-! ### Parts of the state -/

/-- The port of a host. -/
def State.port (s : State) (h : HostId) : Port := s.ports.get h

/-- The port of a host changed. -/
def State.onPort (s : State) (h : HostId) (f : Port → Port) : State :=
  { s with ports := s.ports.set h (f (s.ports.get h)) }

/-- What the WS holds for a host. -/
def State.store (s : State) (h : HostId) : WsHost := s.ws.hosts.get h

/-- What the WS holds for a host, changed. -/
def State.onStore (s : State) (h : HostId) (f : WsHost → WsHost) : State :=
  { s with ws := { s.ws with hosts := s.ws.hosts.set h (f (s.ws.hosts.get h)) } }

/-- The event queue of a host. -/
def State.evq (s : State) (h : HostId) : EvQueue := s.evu.queues.get h

/-- The event queue of a host changed. -/
def State.onEvq (s : State) (h : HostId) (f : EvQueue → EvQueue) : State :=
  { s with evu := { s.evu with queues := s.evu.queues.set h (f (s.evu.queues.get h)) } }

/-- The RSC changed. -/
def State.onRsc (s : State) (f : Rsc → Rsc) : State := { s with rsc := f s.rsc }

/-- The FRE changed. -/
def State.onFre (s : State) (f : Fre → Fre) : State := { s with fre := f s.fre }

/-! ### Outcomes and ATN -/

/-- The condition that drives the ATN output of port h, read live (R173). -/
def attentionNow (s : State) (h : HostId) : Bool :=
  attention (s.port h).mask (s.port h).held.isSome (!(s.evq h).events.isEmpty) (s.store h).latch

/-- Every ATN output follows its conditions, in the action that changes them (R173). -/
def State.refreshAtn (s : State) : State :=
  { s with ports := s.ports.mapHosts fun h p => { p with atn := attentionNow s h } }

/-- The outcome of a step: where the part can take the step, its effect with the ATN outputs brought up to
date; where it cannot, nothing changes (log 1, DESIGN CHOICE: safe). -/
def settle (s : State) : Option State → Host.Outcome State Fault Refusal
  | some t => .next t.refreshAtn
  | none => .next s

/-! ### Requests and responses (R163 to R165) -/

/-- The port ends its request in progress and holds the response to it (R165). -/
def answer (h : HostId) (res : Result) (payload : List Byte) (s : State) : State :=
  match (s.port h).inProgress with
  | some r =>
    s.onPort h fun p =>
      { p with inProgress := none, held := some ⟨r.kind.code, r.tag, res, payload⟩ }
  | none => s

/-- The request in progress at the port, where it is of that kind. -/
def requestOf (s : State) (h : HostId) (k : Kind) : Option Request :=
  match (s.port h).inProgress with
  | some r => if r.kind = k then some r else none
  | none => none

/-- A request of port p waits to be taken by the owner (a QUERY_HOST waits until the WS has read its part). -/
def waitsAt (s : State) (o : Owner) (p : HostId) : Bool :=
  match (s.port p).inProgress with
  | some r => decide (r.kind.owner = o) && r.report.ws.isNone
  | none => false

/-- The request that waits at port p has already seen the owner take a request of port h. -/
def hasSeen (s : State) (p h : HostId) : Bool :=
  match (s.port p).inProgress with
  | some r => decide (h ∈ r.passed)
  | none => false

/-- The owner may take a request of port h: no other port's waiting request would then see port h served
twice (R81, R105). -/
def mayTake (s : State) (o : Owner) (h : HostId) : Bool :=
  hostList.all fun p => decide (p = h) || !(waitsAt s o p && hasSeen s p h)

/-- The other requests that wait at the owner have seen port h served. -/
def markServed (o : Owner) (h : HostId) (s : State) : State :=
  { s with
    ports := s.ports.mapHosts fun p q =>
      if p ≠ h ∧ waitsAt s o p then
        { q with inProgress := q.inProgress.map fun r => { r with passed := h :: r.passed } }
      else q }

/-- The WS or the FRE takes port h's request of kind k, where it has one and the fairness law of R81 and R105
lets it: the request, and the state in which it has been taken. -/
def takeFair (k : Kind) (h : HostId) (s : State) : Option (Request × State) :=
  match requestOf s h k with
  | some r => if mayTake s k.owner h then some (r, markServed k.owner h s) else none
  | none => none

/-! ### The RSC (R20 to R23) -/

/-- The RSC has taken a notice that awaits confirmation (R88). -/
def Rsc.holds (c : Rsc) : Bool :=
  match c.awaiting with
  | some (.worked _ _) => true
  | some (.sent _) | none => false

/-- The RSC can take a request or a session end: no boundary procedure is in progress (R44) and it has taken no notice
that awaits confirmation (R88). One that EXPECTED_INSTANT has sent and the RSC has not yet taken holds nothing back: the
RSC takes it between requests as any notice (R23; log 27, DEDUCED: safe). -/
def rscFree (s : State) : Bool := s.rsc.proc.isNone && !s.rsc.holds

/-- The RSC has carried out every boundary notice it was sent. -/
def rscQuiet (s : State) : Bool := s.rsc.notices.isEmpty && s.rsc.proc.isNone

/-- The ports in the order the arbiter looks at them: the circular order after the pointer (R21). -/
def arbiterOrder (pointer : HostId) : List HostId :=
  [nextHost pointer, nextHost (nextHost pointer), nextHost (nextHost (nextHost pointer)), pointer]

/-- The port whose claim request the arbiter chooses (R21). -/
def granted (s : State) : Option HostId := (arbiterOrder s.rsc.pointer).find? (waitsAt s .rsc)

/-- The RSC takes the request its arbiter grants, where that is of kind k: the port, the request, and the
state with the pointer moved (R21). -/
def takeGranted (k : Kind) (s : State) : Option (HostId × Request × State) :=
  if rscFree s then
    match granted s with
    | some h =>
      match requestOf s h k with
      | some r => some (h, r, s.onRsc fun c => { c with pointer := h })
      | none => none
    | none => none
  else none

/-! ### Claim records -/

/-- The role of a record. -/
def ClaimRec.role (r : ClaimRec) : Role :=
  match r.body with
  | .talk _ => .talk
  | .listen => .listen

/-- The record is a TALK record. -/
def ClaimRec.isTalk (r : ClaimRec) : Bool := decide (r.role = .talk)

/-- The record is in PENDING_ADD or ACTIVE: in the forward view (R18). -/
def ClaimRec.forward (r : ClaimRec) : Bool :=
  match r.state with
  | .pendingAdd | .active => true
  | .pendingRelease _ => false

/-- The record has the key of host, slot and role. -/
def ClaimRec.hasKey (r : ClaimRec) (h : HostId) (slot : Nat) (role : Role) : Bool :=
  decide (r.host = h ∧ r.slot = slot ∧ r.role = role)

/-- The record of a key in PENDING_ADD or ACTIVE, which a request naming the key acts on (R13). -/
def keyForward (rs : List ClaimRec) (h : HostId) (slot : Nat) (role : Role) : Option ClaimRec :=
  rs.find? fun r => r.hasKey h slot role && r.forward

/-- A record of the key stands in PENDING_RELEASE. -/
def keyLeaving (rs : List ClaimRec) (h : HostId) (slot : Nat) (role : Role) : Bool :=
  rs.any fun r => r.hasKey h slot role && !r.forward

/-- The record of that identity. -/
def recordOf (rs : List ClaimRec) (id : Nat) : Option ClaimRec := rs.find? fun r => decide (r.id = id)

/-- The record of that identity changed. -/
def updateRec (id : Nat) (f : ClaimRec → ClaimRec) (rs : List ClaimRec) : List ClaimRec :=
  rs.map fun r => if r.id = id then f r else r

/-- The TALK fields of a record changed. -/
def ClaimRec.onTalk (f : TalkPart → TalkPart) (r : ClaimRec) : ClaimRec :=
  match r.body with
  | .talk t => { r with body := .talk (f t) }
  | .listen => r

/-- The record count of a host, in every state and from every session (R14). -/
def recordCount (rs : List ClaimRec) (h : HostId) : Nat := rs.countP fun r => decide (r.host = h)

/-- The record is silenced, for a talker, or excluded from delivery, for a listener (R10). -/
def excluded (s : State) (r : ClaimRec) : Bool :=
  decide (r.state = .pendingRelease .discard) || decide ((s.port r.host).state = .detaching)

/-- Renewal sets lease remaining to the lease on an ACTIVE leased record and changes no other (R38, R40). -/
def ClaimRec.renewed (r : ClaimRec) : ClaimRec :=
  if r.state = .active ∧ r.lease ≠ 0#16 then { r with remaining := some r.lease } else r

/-! ### Cells and transmit queues (R101 to R109) -/

/-- The unallocated pool (R102). -/
def pool (w : Ws) : Nat :=
  Config.cells - (w.hosts.h0.quota + w.hosts.h1.quota + w.hosts.h2.quota + w.hosts.h3.quota)

/-- `n` free cells are charged to host h (R101, R103). -/
def charge (h : HostId) (n : Nat) (s : State) : State :=
  let t := s.onStore h fun c => { c with held := c.held + n }
  { t with ws := { t.ws with free := t.ws.free - n } }

/-- `n` cells of host h are returned (R101, R104). -/
def giveBack (h : HostId) (n : Nat) (s : State) : State :=
  let t := s.onStore h fun c => { c with held := c.held - n }
  { t with ws := { t.ws with free := t.ws.free + n } }

/-- The queue belongs to that record of that host. -/
def TxQueue.isOf (id : Nat) (h : HostId) (q : TxQueue) : Bool := decide (q.id = id ∧ q.owner = h)

/-- The first element that meets the test is changed. -/
def changeFirst {α : Type} (p : α → Bool) (f : α → α) : List α → List α
  | [] => []
  | x :: xs => if p x then f x :: xs else x :: changeFirst p f xs

/-- The entries in the transmit queue of a record; none where the queue has ended. -/
def entriesOf (qs : List TxQueue) (id : Nat) (h : HostId) : List TxEntry :=
  match qs.find? (TxQueue.isOf id h) with
  | some q => q.entries
  | none => []

/-- The entries in all the transmit queues of a host (R101, R114). -/
def txEntries (qs : List TxQueue) (h : HostId) : Nat :=
  ((qs.filter fun q => decide (q.owner = h)).map fun q => q.entries.length).sum

/-- The transmit queues changed. -/
def State.onQueues (s : State) (f : List TxQueue → List TxQueue) : State :=
  { s with ws := { s.ws with queues := f s.ws.queues } }

/-- The head entry of a record's queue is removed and its cell returned, in one action (R104, R123). -/
def loadHead (id : Nat) (h : HostId) (s : State) : State :=
  match entriesOf s.ws.queues id h with
  | [] => s
  | _ :: _ =>
    giveBack h 1
      (s.onQueues (changeFirst (TxQueue.isOf id h) fun q => { q with entries := q.entries.tail }))

/-- Entries are appended to a record's queue and charged to its owner, in one action (R103, R121); where no such
queue stands nothing is stored and no cell charged. -/
def appendEntries (id : Nat) (h : HostId) (es : List TxEntry) (s : State) : State :=
  if s.ws.queues.any (TxQueue.isOf id h) then
    charge h es.length
      (s.onQueues (changeFirst (TxQueue.isOf id h) fun q => { q with entries := q.entries ++ es }))
  else s

/-- A flush: every entry of the queue is removed and its cell returned to the queue's owner; a queue already
ended is left as it is (R107, R108). -/
def flushQueue (id : Nat) (s : State) : State :=
  match s.ws.queues.find? (fun q => decide (q.id = id)) with
  | some q =>
    giveBack q.owner q.entries.length
      (s.onQueues (changeFirst (fun q => decide (q.id = id)) fun q => { q with entries := [] }))
  | none => s

/-- An ending: the queue is flushed and removed (R108). -/
def endQueue (id : Nat) (s : State) : State :=
  (flushQueue id s).onQueues fun qs => qs.eraseP fun q => decide (q.id = id)

/-- The RSC asks the WS for flushes and endings (R105). -/
def askWs (asks : List QueueAsk) (s : State) : State :=
  { s with ws := { s.ws with asks := s.ws.asks ++ asks } }

/-- The FRE hands the WS a piece of work (R105). -/
def toWs (w : FreWork) (s : State) : State :=
  { s with ws := { s.ws with fromFre := s.ws.fromFre ++ [w] } }

/-- The FRE's work for the WS holds an offer to the host. -/
def offersTo (h : HostId) (w : FreWork) : Bool :=
  match w with
  | .offers os => os.any fun o => decide (o.host = h)
  | .boundary | .loss _ => false

/-- The work with the host left out of the hosts a loss notice names. -/
def FreWork.passingOver (h : HostId) (w : FreWork) : FreWork :=
  match w with
  | .loss hs => .loss (hs.filter fun g => decide (g ≠ h))
  | .offers os => .offers os
  | .boundary => .boundary

/-- The loss notices not yet taken pass the host over, whatever its port's state is when they are: a loss notice taken
after the port became DETACHING sets nothing for the host, and its next session begins with no pending flag (R105, R111,
R147; log 30, DEDUCED: unsafe). -/
def passOver (h : HostId) (s : State) : State :=
  { s with ws := { s.ws with fromFre := s.ws.fromFre.map (FreWork.passingOver h) } }

/-! ### Events handed to the Event Unit (R153) -/

/-- The RSC hands over events, in order. -/
def eventsFromRsc (es : List (HostId × Event)) (s : State) : State :=
  { s with evu := { s.evu with fromRsc := s.evu.fromRsc ++ es } }

/-- The transmit logic hands over an event. -/
def eventFromTransmit (h : HostId) (e : Event) (s : State) : State :=
  { s with evu := { s.evu with fromTransmit := s.evu.fromTransmit ++ [(h, e)] } }

/-- The WS hands over an event. -/
def eventFromWs (h : HostId) (e : Event) (s : State) : State :=
  { s with evu := { s.evu with fromWs := s.evu.fromWs ++ [(h, e)] } }

/-- The low 16 bits of a frame number (R150). -/
def frameField (k : Word) : Half := k.setWidth 16

/-- An ENGINE event of a change to the engine state `st` is queued to every host ATTACHED at the change
(R98). -/
def engineEvents (st : EngineState) (k : Word) (s : State) : State :=
  { s with
    evu :=
      { s.evu with
        fromFre := s.evu.fromFre ++
          (hostList.filter fun h => decide ((s.port h).state = .attached)).map
            fun h => (h, ⟨.engine st, frameField k⟩) } }

/-! ### Session ends (R169, R170) -/

/-- No owner has yet to report. -/
def Owners.isEmpty (o : Owners) : Bool := !o.rsc && !o.ws && !o.evu && !o.fre

/-- An owner reports to port h: `clear` removes it from the owners yet to report, and the last report completes
DETACH (R170). -/
def report (h : HostId) (clear : Owners → Owners) (s : State) : State :=
  let t := s.onPort h fun p => { p with toReport := clear p.toReport }
  if (t.port h).toReport.isEmpty then
    answer h .ok [] (t.onPort h fun p => { p with state := .detached })
  else t

/-! ### Values -/

/-- A 16-bit saturating increment (R96, R141). -/
def satHalf (n : Half) : Half := if n = 0xFFFF#16 then n else n + 1#16

/-- An 8-bit saturating increment (R126). -/
def satByte (n : Byte) : Byte := if n = 0xFF#8 then n else n + 1#8

/-- The low `w` bits of a value, the upper bits 0 (R68). -/
def cut (w : Nat) (x : Word) : Word := x &&& BitVec.ofNat 32 (2 ^ w - 1)

end Sys2Proof.Machine
end

