-- ==== Sys2Proof/Machine/Claims.lean ====
section
/-! DEFINITION. The claim requests the RSC takes through its arbiter: CLAIM, RELEASE, RENEW, QUERY_SLOT
(R20 to R43). -/

namespace Sys2Proof.Machine

/-! ### CLAIM (R26 to R30) -/

/-- The slot is taken in the forward view, for a claim by host h in that role (R29). -/
def conflicts (rs : List ClaimRec) (h : HostId) (role : Role) (slot : Nat) : Bool :=
  (decide (role = .talk) && rs.any fun r => r.isTalk && decide (r.slot = slot) && r.forward) ||
  (keyForward rs h slot role).isSome

/-- The role of a body. -/
def RecBody.role : RecBody → Role
  | .talk _ => .talk
  | .listen => .listen

/-- The checks of CLAIM in turn (R25 to R29): the result and failing index of the first that fails. -/
def claimRefusal (s : State) (h : HostId) (a : ClaimArgs) : Option (Result × Option Nat) :=
  match firstRepeat a.slots with
  | some i => some (.badArgument, some i)
  | none =>
    match a.slots.findIdx? fun x => decide (s.fre.fmt.slots ≤ x) with
    | some i => some (.badSlot, some i)
    | none =>
      if Config.maxClaims < recordCount s.rsc.records h + a.slots.length
      then some (.claimLimit, some (Config.maxClaims - recordCount s.rsc.records h))
      else
        match a.slots.findIdx? (conflicts s.rsc.records h a.body.role) with
        | some i => some (.conflict, some i)
        | none => none

/-- A new record (R2). -/
def newRecord (h : HostId) (session : Byte) (a : ClaimArgs) (id : Nat) (seq : Half) (slot : Nat) : ClaimRec :=
  { id := id, host := h, slot := slot, body := a.body, state := .pendingAdd, lease := a.lease,
    remaining := none, seq := seq, session := session }

/-- One record is created at the tail of the store for a slot, with an empty transmit queue for a TALK record;
the sequence number advances (R2, R15, R106). -/
def createRecord (h : HostId) (session : Byte) (a : ClaimArgs) (s : State) (slot : Nat) : State :=
  let r := newRecord h session a s.rsc.nextId s.rsc.seq slot
  let t := s.onRsc fun c =>
    { c with records := c.records ++ [r], seq := c.seq + 1#16, nextId := c.nextId + 1 }
  match a.body with
  | .talk p => t.onQueues fun qs => qs ++ [⟨r.id, h, p.depth, []⟩]
  | .listen => t

/-- CLAIM's step (R22, R30). -/
def claimStep (s : State) : Option State :=
  match takeGranted .claim s with
  | some (h, r, t) =>
    match parseClaim r.payload with
    | none => some (answer h .badArgument (indexByte none) t)
    | some a =>
      match claimRefusal t h a with
      | some (res, i) => some (answer h res (indexByte i) t)
      | none =>
        let session := (t.port h).session
        some (answer h .ok (be16 t.rsc.seq ++ [session])
          (a.slots.foldl (createRecord h session a) t))
  | none => none

/-- CLAIM (R30). -/
def execClaim (s : State) : Host.Outcome State Fault Refusal := settle s (claimStep s)

/-! ### RELEASE (R32 to R36) -/

/-- The record check of RELEASE and RENEW, slot by slot (R32, R37): a slot passes where the caller holds a
record of the key in PENDING_ADD or ACTIVE. -/
def keyRefusal (rs : List ClaimRec) (h : HostId) (role : Role) : Nat → List Nat → Option (Result × Option Nat)
  | _, [] => none
  | i, x :: xs =>
    if (keyForward rs h x role).isSome then keyRefusal rs h role (i + 1) xs
    else if keyLeaving rs h x role then some (.releasing, some i)
    else some (.noClaim, some i)

/-- The checks of RELEASE and RENEW after the payload's: a repeated slot, then the records (R25, R32, R37). -/
def listRefusal (rs : List ClaimRec) (h : HostId) (role : Role) (slots : List Nat) :
    Option (Result × Option Nat) :=
  match firstRepeat slots with
  | some i => some (.badArgument, some i)
  | none => keyRefusal rs h role 0 slots

/-- The release of the caller's record on one slot: withdrawal of a PENDING_ADD record (R33); an ACTIVE record
goes to PENDING_RELEASE in the mode named, a TALK record's queue being flushed under DISCARD (R34, R35). -/
def releaseSlot (h : HostId) (role : Role) (mode : ReleaseMode) (s : State) (slot : Nat) : State :=
  match keyForward s.rsc.records h slot role with
  | some r =>
    if r.state = .pendingAdd then
      askWs (if r.isTalk then [.ending r.id] else [])
        (s.onRsc fun c => { c with records := c.records.filter fun q => decide (q.id ≠ r.id) })
    else
      askWs (if r.isTalk && decide (mode = .discard) then [.flush r.id] else [])
        (s.onRsc fun c =>
          { c with records := updateRec r.id (fun q => { q with state := .pendingRelease mode }) c.records })
  | none => s

/-- The outcome byte of one slot of a RELEASE: WITHDRAWN or RELEASE_PENDING (R36, Table 27). -/
def releaseOutcome (rs : List ClaimRec) (h : HostId) (role : Role) (slot : Nat) : Byte :=
  match keyForward rs h slot role with
  | some r => if r.state = .pendingAdd then 0x00#8 else 0x01#8
  | none => 0x01#8

/-- RELEASE's step (R22, R32). -/
def releaseStep (s : State) : Option State :=
  match takeGranted .release s with
  | some (h, r, t) =>
    match parseRelease r.payload with
    | none => some (answer h .badArgument (indexByte none) t)
    | some a =>
      match listRefusal t.rsc.records h a.role a.slots with
      | some (res, i) => some (answer h res (indexByte i) t)
      | none =>
        some (answer h .ok
          (nat8 a.slots.length :: a.slots.map (releaseOutcome t.rsc.records h a.role))
          (a.slots.foldl (releaseSlot h a.role a.mode) t))
  | none => none

/-- RELEASE (R32 to R36). -/
def execRelease (s : State) : Host.Outcome State Fault Refusal := settle s (releaseStep s)

/-! ### RENEW (R37 to R39) -/

/-- The renewal of the caller's record on one slot (R38). -/
def renewSlot (h : HostId) (role : Role) (s : State) (slot : Nat) : State :=
  match keyForward s.rsc.records h slot role with
  | some r => s.onRsc fun c => { c with records := updateRec r.id ClaimRec.renewed c.records }
  | none => s

/-- The three bytes of one slot of a RENEW response: RENEWED with the lease, or UNCHANGED (R38, Table 27). -/
def renewOutcome (rs : List ClaimRec) (h : HostId) (role : Role) (slot : Nat) : List Byte :=
  match keyForward rs h slot role with
  | some r => if r.state = .active ∧ r.lease ≠ 0#16 then 0x00#8 :: be16 r.lease else 0x01#8 :: be16 0#16
  | none => 0x01#8 :: be16 0#16

/-- RENEW's step (R22, R37). -/
def renewStep (s : State) : Option State :=
  match takeGranted .renew s with
  | some (h, r, t) =>
    match parseRenew r.payload with
    | none => some (answer h .badArgument (indexByte none) t)
    | some (role, slots) =>
      match listRefusal t.rsc.records h role slots with
      | some (res, i) => some (answer h res (indexByte i) t)
      | none =>
        some (answer h .ok (nat8 slots.length :: slots.flatMap (renewOutcome t.rsc.records h role))
          (slots.foldl (renewSlot h role) t))
  | none => none

/-- RENEW (R37, R38). -/
def execRenew (s : State) : Host.Outcome State Fault Refusal := settle s (renewStep s)

/-! ### QUERY_SLOT (R42, R43) -/

/-- The in-force talker of a slot: the TALK record in ACTIVE or PENDING_RELEASE (R42). -/
def inForceTalker (rs : List ClaimRec) (slot : Nat) : Option ClaimRec :=
  rs.find? fun r => r.isTalk && decide (r.slot = slot) && decide (r.state ≠ .pendingAdd)

/-- The arriving talker of a slot: the TALK record in PENDING_ADD (R42). -/
def arrivingTalker (rs : List ClaimRec) (slot : Nat) : Option ClaimRec :=
  rs.find? fun r => r.isTalk && decide (r.slot = slot) && decide (r.state = .pendingAdd)

/-- The summary of a talker, where there is one (Table 29). -/
def summaryOf (qs : List TxQueue) : Option ClaimRec → List Byte
  | some r =>
    match r.body with
    | .talk t => talkerSummary r t (entriesOf qs r.id r.host).length
    | .listen => []
  | none => []

/-- The payload of an OK QUERY_SLOT (R42, R43, Table 29). -/
def slotPayload (s : State) (slot : Nat) : List Byte :=
  let inForce := inForceTalker s.rsc.records slot
  let arriving := arrivingTalker s.rsc.records slot
  let listeners := s.rsc.records.filter fun r => !r.isTalk && decide (r.slot = slot)
  [nat8 slot, bitAt inForce.isSome 0 ||| bitAt arriving.isSome 1] ++
    summaryOf s.ws.queues inForce ++ summaryOf s.ws.queues arriving ++
    nat8 listeners.length :: listeners.flatMap listenerEntry

/-- QUERY_SLOT's step (R42). -/
def querySlotStep (s : State) : Option State :=
  match takeGranted .querySlot s with
  | some (h, r, t) =>
    match oneByte r.payload with
    | none => some (answer h .badArgument [] t)
    | some b =>
      if Config.mapSlots ≤ b.toNat then some (answer h .badSlot [] t)
      else some (answer h .ok (slotPayload t b.toNat) t)
  | none => none

/-- QUERY_SLOT (R42, R43). -/
def execQuerySlot (s : State) : Host.Outcome State Fault Refusal := settle s (querySlotStep s)

end Sys2Proof.Machine
end

