-- ==== Sys2Proof/Machine/Engine.lean ====
section
/-! DEFINITION. The Frame Engine's requests and its votes: FORMAT, RUN, HALT, QUERY_ENGINE and the FRE's session
end (R64, R65, R78 to R86, R91, R93, R98, R99). -/

namespace Sys2Proof.Machine

/-! ### The lines -/

/-- HTXEN is deasserted and HTXD released; no word is being shifted out (R75). -/
def Fre.releaseTx (f : Fre) : Fre := { f with txWord := none, htxd := none, htxen := false }

/-- The engine is STOPPED: every highway line released, no work of a frame in flight, the acquisition count
absent (R69, R75, R86, R90, R92, R94). -/
def Fre.toStopped (f : Fre) : Fre :=
  { f.releaseTx with
    engine := .stopped, leadIn := false, slot0Due := false, acq := none, rxWord := none, account := none,
    provisional := none, hbclk := none, hfsync := none }

/-! ### FORMAT (R78, R79) -/

/-- The highest slot number named by any record, where it is at or above the new F (R79). -/
def slotInUse (rs : List ClaimRec) (f : Nat) : Option Nat :=
  let top := rs.foldl (fun m r => max m r.slot) 0
  if rs.any fun r => decide (f ≤ r.slot) then some top else none

/-- FORMAT's step: the engine state, the arguments, the claims, in turn (R78, R79). The third check is the
RSC's, taken when the RSC is free, and the record is replaced in the same action. -/
def formatStep (h : HostId) (s : State) : Option State :=
  match takeFair .format h s with
  | some (r, t) =>
    if s.fre.engine ≠ .stopped then some (answer h .state [] t)
    else
      match parseFormat r.payload with
      | none => some (answer h .badArgument [] t)
      | some f =>
        if rscFree s then
          match slotInUse s.rsc.records f.slots with
          | some top => some (answer h .inUse [nat8 top] t)
          | none => some (answer h .ok [] (t.onFre fun e => { e with fmt := f }))
        else none
  | none => none

/-- FORMAT (R78). -/
def execFormat (h : HostId) (s : State) : Host.Outcome State Fault Refusal := settle s (formatStep h s)

/-! ### Votes (R82, R83) -/

/-- The vote set is empty. -/
def noVotes (v : Quad Bool) : Bool := !v.h0 && !v.h1 && !v.h2 && !v.h3

/-- The start in leader mode: the format in use is taken and the lead-in begins, HBCLK and HFSYNC driven low
(R65, R69, R84). -/
def Fre.startLeader (f : Fre) : Fre :=
  { f with engine := .running, leadIn := true, inUse := f.fmt, clkHigh := false,
           hbclk := some false, hfsync := some false }

/-- The start in follower mode: the format in use is taken, the acquisition count and the previous sync level
are absent (R65, R72, R85). -/
def Fre.startFollower (f : Fre) : Fre :=
  { f with engine := .acquiring, leadIn := false, inUse := f.fmt, acq := none, prevSync := none }

/-- The vote set has become non-empty (R82): a STOPPED engine starts, a stop is cancelled (R93). -/
def votesRaised (s : State) : State :=
  match s.fre.engine with
  | .stopped =>
    match s.fre.fmt.mode with
    | .leader => engineEvents .running s.fre.frame (s.onFre Fre.startLeader)
    | .follower => s.onFre Fre.startFollower
  | .stopping => engineEvents .running s.fre.frame (s.onFre fun f => { f with engine := .running })
  | .acquiring | .running => s

/-- The vote set has become empty (R83). -/
def votesEmptied (s : State) : State :=
  match s.fre.engine with
  | .stopped | .stopping => s
  | .acquiring => engineEvents .stopped s.fre.frame (s.onFre Fre.toStopped)
  | .running =>
    if s.fre.leadIn then engineEvents .stopped s.fre.frame (s.onFre Fre.toStopped)
    else s.onFre fun f => { f with engine := .stopping }

/-- Host h's vote is added (R82). -/
def addVote (h : HostId) (s : State) : State :=
  let t := s.onFre fun f => { f with votes := f.votes.set h true }
  if noVotes s.fre.votes then votesRaised t else t

/-- Host h's vote is removed (R83). A removal that finds the set already empty changes no state. -/
def removeVote (h : HostId) (s : State) : State :=
  let t := s.onFre fun f => { f with votes := f.votes.set h false }
  if noVotes t.fre.votes && !noVotes s.fre.votes then votesEmptied t else t

/-- The payload of a RUN or HALT response: engine state and vote set (Table 27). -/
def enginePayload (s : State) : List Byte := [s.fre.engine.code, hostSetByte s.fre.votes]

/-- RUN's step (R82); the payload is not examined (R179). -/
def runStep (h : HostId) (s : State) : Option State :=
  match takeFair .run h s with
  | some (_, t) => some (answer h .ok (enginePayload (addVote h t)) (addVote h t))
  | none => none

/-- RUN (R82). -/
def execRun (h : HostId) (s : State) : Host.Outcome State Fault Refusal := settle s (runStep h s)

/-- HALT's step (R83); the payload is not examined (R179). -/
def haltStep (h : HostId) (s : State) : Option State :=
  match takeFair .halt h s with
  | some (_, t) => some (answer h .ok (enginePayload (removeVote h t)) (removeVote h t))
  | none => none

/-- HALT (R83). -/
def execHalt (h : HostId) (s : State) : Host.Outcome State Fault Refusal := settle s (haltStep h s)

/-! ### QUERY_ENGINE (R99) -/

/-- The payload of QUERY_ENGINE (R99, Table 27). -/
def queryEnginePayload (f : Fre) : List Byte :=
  [f.engine.code] ++ be32 f.frame ++ be16 f.slip ++ [hostSetByte f.votes] ++ f.fmt.encode

/-- QUERY_ENGINE's step; the payload is not examined (R179). -/
def queryEngineStep (h : HostId) (s : State) : Option State :=
  match takeFair .queryEngine h s with
  | some (_, t) => some (answer h .ok (queryEnginePayload s.fre) t)
  | none => none

/-- QUERY_ENGINE (R99). -/
def execQueryEngine (h : HostId) (s : State) : Host.Outcome State Fault Refusal :=
  settle s (queryEngineStep h s)

end Sys2Proof.Machine
end

