-- ==== Sys2Proof/Machine/Events.lean ====
section
/-! DEFINITION. The Event Unit's steps: taking an event, NEXT_EVENTS (R149 to R156). -/

namespace Sys2Proof.Machine

/-! ### Taking an event (R152, R153) -/

/-- The events an emitter has handed over and the EVU has not taken. -/
def handedBy (u : Evu) : Emitter → List (HostId × Event)
  | .rsc => u.fromRsc
  | .transmit => u.fromTransmit
  | .ws => u.fromWs
  | .fre => u.fromFre

/-- The events of an emitter not yet taken, replaced. -/
def setHanded (u : Evu) (src : Emitter) (es : List (HostId × Event)) : Evu :=
  match src with
  | .rsc => { u with fromRsc := es }
  | .transmit => { u with fromTransmit := es }
  | .ws => { u with fromWs := es }
  | .fre => { u with fromFre := es }

/-- The event of an emitter that may be taken next for host h, and the ones left: the oldest, if it is for h;
of the FRE, whose copies for different hosts take no order, the oldest for h (R153). -/
def nextHanded (src : Emitter) (h : HostId) (es : List (HostId × Event)) :
    Option (Event × List (HostId × Event)) :=
  match src with
  | .fre =>
    match es.find? fun x => decide (x.1 = h) with
    | some x => some (x.2, es.erase x)
    | none => none
  | .rsc | .transmit | .ws =>
    match es with
    | x :: rest => if x.1 = h then some (x.2, rest) else none
    | [] => none

/-- The EVU's action on an event, by the state of the port and the room in the queue (R152). -/
def takeEvent (e : Event) (port : PortState) (q : EvQueue) : EvQueue :=
  if port ≠ .attached then q
  else if q.events.length < Config.maxEvents then { q with events := q.events ++ [e] }
  else { q with lost := true }

/-- EVENT_TAKEN's step (R152, R153). -/
def eventTakenStep (src : Emitter) (h : HostId) (s : State) : Option State :=
  match nextHanded src h (handedBy s.evu src) with
  | some (e, rest) =>
    some (({ s with evu := setHanded s.evu src rest } : State).onEvq h (takeEvent e (s.port h).state))
  | none => none

/-- EVENT_TAKEN (R152). -/
def execEventTaken (src : Emitter) (h : HostId) (s : State) : Host.Outcome State Fault Refusal :=
  settle s (eventTakenStep src h s)

/-! ### NEXT_EVENTS (R155, R156) -/

/-- The payload of an OK NEXT_EVENTS (Table 27). -/
def eventsPayload (left : Nat) (lost : Bool) (taken : List Event) : List Byte :=
  [nat8 left, yesNo lost, nat8 taken.length] ++ taken.flatMap Event.encode

/-- NEXT_EVENTS's step: the oldest records are removed, EVENTS_LOST is read and cleared (R155). -/
def nextEventsStep (h : HostId) (s : State) : Option State :=
  match requestOf s h .nextEvents with
  | some r =>
    match parseMaximum Config.maxNextEvents r.payload with
    | none => some (answer h .badArgument [] s)
    | some m =>
      let q := s.evq h
      some (answer h .ok (eventsPayload (q.events.drop m).length q.lost (q.events.take m))
        (s.onEvq h fun _ => ⟨q.events.drop m, false⟩))
  | none => none

/-- NEXT_EVENTS (R155). -/
def execNextEvents (h : HostId) (s : State) : Host.Outcome State Fault Refusal := settle s (nextEventsStep h s)

end Sys2Proof.Machine
end

