-- ==== Sys2Proof/Machine/Boundary.lean ====
section
/-! DEFINITION. The boundary procedure of the RSC (R44 to R56) as functions of the store and the queues, and the
steps that carry it out: BOUNDARY_PROCEDURE, LEASE_EXPIRY, AWAITING_CONFIRMATION_NOTICE's working out. -/

namespace Sys2Proof.Machine

/-- What a step of the procedure leaves of the store, and the events and requests it gives rise to. -/
structure Stage where
  records : List ClaimRec
  events  : List (HostId × Event)
  asks    : List QueueAsk
deriving DecidableEq, Repr

/-- The listener hosts of every slot, fixed when the procedure begins: the hosts with a LISTEN record on the
slot in PENDING_ADD or ACTIVE (R45). -/
def listenerHosts (rs : List ClaimRec) : List ListenerHost :=
  (rs.filter fun r => !r.isTalk && r.forward).map fun r => ⟨r.slot, r.host⟩

/-- The TALKER_CHANGED events for a talker of the owner on a slot: to the slot's listener hosts but the owner, H0 to H3
(R45, Table 13). The owner is a host, whatever session the record is of (R6): one that has attached again and listens to
the slot is excepted too, where R157, resting on R45, has it told of its old talker's end (log 28, DESIGN CHOICE:
unsafe). -/
def talkerChanged (k : Word) (ls : List ListenerHost) (slot : Nat) (owner : HostId)
    (talker : Option HostId) : List (HostId × Event) :=
  (hostList.filter fun h => decide (⟨slot, h⟩ ∈ ls ∧ h ≠ owner)).map
    fun h => (h, ⟨.talkerChanged slot talker, frameField k⟩)

/-- The events of a deletion: ENDED to the owner, then TALKER_CHANGED (none) for a TALK record (R45, R48, R50). -/
def endEvents (k : Word) (ls : List ListenerHost) (why : EndReason) (r : ClaimRec) : List (HostId × Event) :=
  (r.host, ⟨.ended r.slot r.role why, frameField k⟩) ::
    (if r.isTalk then talkerChanged k ls r.slot r.host none else [])

/-! ### Step 1: removal (R46 to R48) -/

/-- The removal step deletes the record: PENDING_RELEASE(DISCARD); PENDING_RELEASE(DRAIN) of a LISTEN record;
PENDING_RELEASE(DRAIN) of a TALK record whose queue holds no entries (R46, R47). -/
def releaseComplete (qs : List TxQueue) (r : ClaimRec) : Bool :=
  match r.state with
  | .pendingRelease .discard => true
  | .pendingRelease .drain => !r.isTalk || (entriesOf qs r.id r.host).isEmpty
  | .pendingAdd | .active => false

/-- The endings asked for when records are deleted: one for each TALK record (R56). -/
def endingsOf (rs : List ClaimRec) : List QueueAsk :=
  (rs.filter ClaimRec.isTalk).map fun r => .ending r.id

/-- Step 1. -/
def removalStep (k : Word) (ls : List ListenerHost) (qs : List TxQueue) (rs : List ClaimRec) : Stage :=
  let gone := rs.filter (releaseComplete qs)
  { records := rs.filter fun r => !releaseComplete qs r
    events  := gone.flatMap (endEvents k ls .released)
    asks    := endingsOf gone }

/-! ### Step 2: leases (R49 to R51) -/

/-- The lease step visits the record: in ACTIVE or PENDING_RELEASE with a lease above 0 (R49). -/
def ClaimRec.leaseCounts (r : ClaimRec) : Bool := decide (r.state ≠ .pendingAdd ∧ r.lease ≠ 0#16)

/-- The lease step finds the record's lease run out (R50). -/
def ClaimRec.expires (r : ClaimRec) : Bool := r.leaseCounts && decide (r.remaining = some 0#16)

/-- The record after a visit that does not expire it: lease remaining counted down (R49). -/
def ClaimRec.countedDown (r : ClaimRec) : ClaimRec :=
  if r.leaseCounts then { r with remaining := r.remaining.map fun n => n - 1#16 } else r

/-- What the expiry of a record asks of the WS: a flush followed by an ending (R50, R107). -/
def expiryAsks (r : ClaimRec) : List QueueAsk := if r.isTalk then [.flush r.id, .ending r.id] else []

/-- Step 2 over a list of records. -/
def leaseStep (k : Word) (ls : List ListenerHost) (rs : List ClaimRec) : Stage :=
  let gone := rs.filter ClaimRec.expires
  { records := (rs.filter fun r => !r.expires).map ClaimRec.countedDown
    events  := gone.flatMap (endEvents k ls .expired)
    asks    := gone.flatMap expiryAsks }

/-- The lease step up to the first record it expires: the records before it, counted down; that record; the
records after it. -/
def leaseUntil : List ClaimRec → Option (List ClaimRec × ClaimRec × List ClaimRec)
  | [] => none
  | r :: rs =>
    if r.expires then some ([], r, rs)
    else
      match leaseUntil rs with
      | some (before, e, after) => some (r.countedDown :: before, e, after)
      | none => none

/-! ### Step 3: adoption (R52 to R54) -/

/-- The number of TALK records on a slot. -/
def talkersOn (rs : List ClaimRec) (slot : Nat) : Nat :=
  rs.countP fun r => r.isTalk && decide (r.slot = slot)

/-- The record waits in PENDING_ADD because its slot still carries another TALK record (R53). -/
def heldBack (all : List ClaimRec) (r : ClaimRec) : Bool :=
  r.isTalk && decide (2 ≤ talkersOn all r.slot)

/-- The adoption step adopts the record (R52). -/
def isAdopted (all : List ClaimRec) (r : ClaimRec) : Bool :=
  decide (r.state = .pendingAdd) && !heldBack all r

/-- An adopted record (R52). -/
def ClaimRec.adopted (r : ClaimRec) : ClaimRec :=
  { r.onTalk (fun t => { t with underruns := 0#8, reported := false }) with
    state := .active
    remaining := if r.lease = 0#16 then none else some r.lease }

/-- The events of an adoption (R54). -/
def adoptEvents (k : Word) (ls : List ListenerHost) (r : ClaimRec) : List (HostId × Event) :=
  (r.host, ⟨.adopted r.slot r.role, frameField k⟩) ::
    (if r.isTalk then talkerChanged k ls r.slot r.host (some r.host) else [])

/-- Step 3. -/
def adoptionStep (k : Word) (ls : List ListenerHost) (rs : List ClaimRec) : Stage :=
  { records := rs.map fun r => if isAdopted rs r then r.adopted else r
    events  := (rs.filter (isAdopted rs)).flatMap (adoptEvents k ls)
    asks    := [] }

/-! ### Step 4: the slot map (R16, R55) -/

/-- The record is placed in the map: a talker in ACTIVE or PENDING_RELEASE, a listener in ACTIVE or
PENDING_RELEASE(DRAIN) (R16). -/
def ClaimRec.placed (r : ClaimRec) : Bool :=
  match r.state with
  | .pendingAdd => false
  | .active | .pendingRelease .drain => true
  | .pendingRelease .discard => r.isTalk

/-- The map entry of a slot (R16). -/
def mapEntryOf (rs : List ClaimRec) (slot : Nat) : MapEntry :=
  { talker := (rs.find? fun r => r.isTalk && decide (r.slot = slot) && r.placed).map ClaimRec.id
    listeners := (rs.filter fun r => !r.isTalk && decide (r.slot = slot) && r.placed).map ClaimRec.id }

/-- Step 4: the map, an entry for each slot from 0 to 63. -/
def slotMapOf (rs : List ClaimRec) : List MapEntry := (List.range Config.mapSlots).map (mapEntryOf rs)

/-! ### The procedure -/

/-- The procedure from its lease step on, of which the first `visited` records of the store have had theirs:
the rest of step 2, then steps 3 and 4. -/
def finishProcedure (k : Word) (ls : List ListenerHost) (visited : Nat) (rs : List ClaimRec) :
    BoundaryResult :=
  let a := leaseStep k ls (rs.drop visited)
  let b := adoptionStep k ls (rs.take visited ++ a.records)
  { records := b.records, map := slotMapOf b.records, events := a.events ++ b.events, asks := a.asks }

/-- The whole boundary procedure for frame k on a store, reading the transmit queues (R44). -/
def runProcedure (k : Word) (qs : List TxQueue) (rs : List ClaimRec) : BoundaryResult :=
  let ls := listenerHosts rs
  let a := removalStep k ls qs rs
  let b := finishProcedure k ls 0 a.records
  { b with events := a.events ++ b.events, asks := a.asks ++ b.asks }

/-- A procedure is put into effect: the store, the map, the events and the requests to the WS. -/
def enact (r : BoundaryResult) (s : State) : State :=
  askWs r.asks (eventsFromRsc r.events
    (s.onRsc fun c => { c with records := r.records, map := r.map }))

/-! ### The steps -/

/-- The RSC carries out the procedure of the oldest notice, or the rest of the procedure in progress, as one
action (R44). -/
def boundaryStep (s : State) : Option State :=
  if s.rsc.awaiting.isSome then none
  else
    match s.rsc.proc, s.rsc.notices with
    | some p, _ =>
      some (enact (finishProcedure p.frame p.listeners p.visited s.rsc.records)
        (s.onRsc fun c => { c with proc := none }))
    | none, k :: ks =>
      some (enact (runProcedure k s.ws.queues s.rsc.records) (s.onRsc fun c => { c with notices := ks }))
    | none, [] => none

/-- BOUNDARY_PROCEDURE (R44). -/
def execBoundaryProcedure (s : State) : Host.Outcome State Fault Refusal := settle s (boundaryStep s)

/-- The lease step of the procedure in progress comes to the next record whose lease has run out, and expires
it (R50): `first` are the records the step has passed, `rest` those it has still to visit. The procedure goes
on from the record after it. -/
def expireNext (k : Word) (ls : List ListenerHost) (first rest : List ClaimRec) (s : State) : Option State :=
  match leaseUntil rest with
  | some (before, e, after) =>
    some (askWs (expiryAsks e) (eventsFromRsc (endEvents k ls .expired e)
      (s.onRsc fun c =>
        { c with
          records := first ++ before ++ after
          proc := some ⟨k, ls, first.length + before.length⟩ })))
  | none => none

/-- LEASE_EXPIRY's step. With a notice waiting and no procedure in progress the RSC begins the procedure: it
fixes the listener hosts, carries out removal, and comes in the lease step to the first record it expires. With
a procedure in progress it comes to the next one. Where no lease has run out the step does not occur. The rest
of the procedure is BOUNDARY_PROCEDURE's (log 4, DESIGN CHOICE: safe). -/
def leaseExpiryStep (s : State) : Option State :=
  if s.rsc.awaiting.isSome then none
  else
    match s.rsc.proc, s.rsc.notices with
    | some p, _ =>
      expireNext p.frame p.listeners (s.rsc.records.take p.visited) (s.rsc.records.drop p.visited) s
    | none, k :: ks =>
      let ls := listenerHosts s.rsc.records
      let a := removalStep k ls s.ws.queues s.rsc.records
      expireNext k ls [] a.records
        (askWs a.asks (eventsFromRsc a.events (s.onRsc fun c => { c with notices := ks })))
    | none, [] => none

/-- LEASE_EXPIRY (R50, R51). -/
def execLeaseExpiry (s : State) : Host.Outcome State Fault Refusal := settle s (leaseExpiryStep s)

end Sys2Proof.Machine
end

