-- ==== Sys2Proof/Machine/Highway.lean ====
section
/-! DEFINITION. The Frame Engine at the edges of the bit clock: boundaries, frame syncs, loss of lock, slot
starts, slot ends, plain bit clocks (R66 to R77, R84 to R98, R123 to R126, R131, R133 to R137). -/

namespace Sys2Proof.Machine

/-! ### Bit positions (R66) -/

/-- N, the length of a frame in bit clocks. -/
def Format.bits (f : Format) : Nat := f.slots * f.width + f.gap

/-- The slot of a bit position and the place of the bit in it; none in the gap. -/
def slotAt (f : Format) (p : Nat) : Option (Nat × Nat) :=
  if p < f.slots * f.width then some (p / f.width, p % f.width) else none

/-- The bit position is the first of a slot. -/
def isSlotStart (f : Format) (p : Nat) : Bool :=
  match slotAt f p with
  | some (_, j) => decide (j = 0)
  | none => false

/-- The bit position is the last of a slot. -/
def isSlotEnd (f : Format) (p : Nat) : Bool :=
  match slotAt f p with
  | some (_, j) => decide (j + 1 = f.width)
  | none => false

/-- Bit j of a word on the line, most significant bit of the width first (R68). -/
def lineBit (width j : Nat) (w : Word) : Bool := w.getLsbD (width - 1 - j)

/-- A sample of HRXD taken into the word being shifted in (R68). -/
def shiftIn (rx : Option Word) (b : Bool) : Word := (rx.getD 0#32 <<< 1) ||| (if b then 1#32 else 0#32)

/-! ### Where the engine stands -/

/-- A frame is in progress: RUNNING or STOPPING, past the lead-in (R67). -/
def inFrame (s : State) : Bool := s.fre.engine.isRunning && !s.fre.leadIn

/-- The FRE waits for the rising edge that begins the next bit position. -/
def risingNext (s : State) : Bool :=
  inFrame s && !s.fre.clkHigh && !s.fre.slot0Due && s.rsc.awaiting.isNone

/-- The FRE waits for the falling edge of the bit position it is at. -/
def fallingNext (s : State) : Bool :=
  inFrame s && s.fre.clkHigh && !s.fre.slot0Due && s.rsc.awaiting.isNone

/-- A frame sync is recognised at a falling edge with that sample of HFSYNC: follower mode, the sample high
and the one before it low (R72). -/
def recognised (f : Fre) (sample : Bool) : Bool :=
  decide (f.inUse.mode = .follower) && decide (f.prevSync = some false) && sample

/-- The previous sync level after a sample; a leader does not sample HFSYNC (R69, R72). -/
def sampled (f : Fre) (sample : Bool) : Option Bool :=
  if f.inUse.mode = .follower then some sample else f.prevSync

/-- HBCLK as a leader drives it; a follower does not (R69). -/
def clockOut (f : Fre) (level : Bool) : Option Bool := if f.inUse.mode = .leader then some level else none

/-- HFSYNC as a leader drives it during a bit position, by the sync style (R70). -/
def syncOut (f : Fre) (p : Nat) : Option Bool :=
  if f.inUse.mode = .leader then
    match f.inUse.sync with
    | .bit => some (decide (p = 0))
    | .word => some (decide (p < f.inUse.width))
  else none

/-! ### Boundaries (R87, R95, R136) -/

/-- The frame counter advances to k; the Receive Path takes k and the WS is sent its notice (R87, R95, R136). -/
def openFrame (k : Word) (s : State) : State :=
  toWs .boundary (s.onFre fun f => { f with frame := k, rpFrame := k, bitPos := 0 })

/-- The RSC is sent a boundary notice (R44, R87). -/
def noticeToRsc (k : Word) (s : State) : State := s.onRsc fun c => { c with notices := c.notices ++ [k] }

/-- The number of the frame the next boundary opens (R95). -/
def nextFrame (s : State) : Word := s.fre.frame + 1#32

/-- The engine stops at a closing boundary, with its ENGINE event (R92, R98). -/
def closeRun (s : State) : State := engineEvents .stopped s.fre.frame (s.onFre Fre.toStopped)

/-- LEAD_IN_END's step: the first rising edge of HBCLK, with the frame sync, is the opening boundary of the run
(R69, R84, R87). -/
def leadInEndStep (s : State) : Option State :=
  if s.fre.engine = .running ∧ s.fre.leadIn = true then
    some ((noticeToRsc (nextFrame s) (openFrame (nextFrame s) s)).onFre fun f =>
      { f with leadIn := false, clkHigh := true, slot0Due := true, hbclk := some true, hfsync := some true })
  else none

/-- LEAD_IN_END (R84). -/
def execLeadInEnd (s : State) : Host.Outcome State Fault Refusal := settle s (leadInEndStep s)

/-- FRAME_BOUNDARY's step: the rising edge after bit N-1 in leader mode. A RUNNING engine emits a frame sync
and opens frame k; a STOPPING engine takes the closing boundary, emits none, releases its lines and is STOPPED
(R69, R70, R87, R92). -/
def frameBoundaryStep (s : State) : Option State :=
  if risingNext s = true ∧ rscQuiet s = true ∧ s.fre.inUse.mode = .leader ∧
      s.fre.bitPos + 1 = s.fre.inUse.bits then
    let t := noticeToRsc (nextFrame s) (openFrame (nextFrame s) s)
    if s.fre.engine = .stopping then some (closeRun t)
    else some (t.onFre fun f =>
      { f with clkHigh := true, slot0Due := true, hbclk := some true, hfsync := some true })
  else none

/-- FRAME_BOUNDARY (R87, R92). -/
def execFrameBoundary (s : State) : Host.Outcome State Fault Refusal := settle s (frameBoundaryStep s)

/-- EXPECTED_INSTANT's step: the rising edge after bit N-1 in follower mode. The FRE sends the RSC a notice
awaiting confirmation; a RUNNING engine begins slot 0's start, which is taken on the map the RSC hands over; a
STOPPING engine takes none, and its transmit lines are released (R88). -/
def expectedInstantStep (s : State) : Option State :=
  if risingNext s = true ∧ rscQuiet s = true ∧ s.fre.inUse.mode = .follower ∧
      s.fre.bitPos + 1 = s.fre.inUse.bits then
    let t := s.onRsc fun c => { c with awaiting := some (.sent (nextFrame s)) }
    some (t.onFre fun f =>
      if f.engine = .running then { f with clkHigh := true, slot0Due := true }
      else { f.releaseTx with clkHigh := true })
  else none

/-- EXPECTED_INSTANT (R88). -/
def execExpectedInstant (s : State) : Host.Outcome State Fault Refusal := settle s (expectedInstantStep s)

/-! ### Slot starts (R123 to R126) -/

/-- What a slot start decides: the word driven, if any; the account for the Receive Path; the talker whose
head entry is loaded; the write to the talker's traffic fields. -/
structure SlotPlan where
  line    : Option Word
  account : Account
  load    : Option (Nat × HostId)
  traffic : Option Traffic
deriving DecidableEq, Repr

/-- The slot left undriven with nothing loaded and nothing counted. -/
def SlotPlan.undriven : SlotPlan := ⟨none, .notSent, none, none⟩

/-- The fill word of an underrun (R77, R125). -/
def fillWord (idle : Word) (t : TalkPart) : Option Word :=
  match t.fill with
  | .repeatLast => some (t.lastWord.getD idle)
  | .pattern => some idle
  | .silent => none

/-- The slot of a talker that is not silenced (R123, R125, R126). -/
def talkerPlan (idle : Word) (entries : List TxEntry) (r : ClaimRec) (t : TalkPart) : SlotPlan :=
  match entries with
  | .word w :: _ => ⟨some w, .sentQueued w, some (r.id, r.host), some (.wordSent r.id w)⟩
  | .silence :: _ => ⟨none, .notSent, some (r.id, r.host), none⟩
  | [] =>
    match fillWord idle t with
    | some w => ⟨some w, .sentFill w, none, some (.underrun r.id)⟩
    | none => ⟨none, .notSent, none, some (.underrun r.id)⟩

/-- The decision of a slot start, from a map and the records it names (R123). -/
def planSlot (s : State) (map : List MapEntry) (rs : List ClaimRec) (slot : Nat) : SlotPlan :=
  match ((map.getD slot MapEntry.empty).talker).bind (recordOf rs) with
  | some r =>
    match r.body with
    | .talk t =>
      if excluded s r then SlotPlan.undriven
      else talkerPlan s.fre.inUse.idle (entriesOf s.ws.queues r.id r.host) r t
    | .listen => SlotPlan.undriven
  | none => SlotPlan.undriven

/-- A slot start's decision put on the lines and handed to the Receive Path, its entry loaded and its cell
returned (R74, R104, R123, R124). -/
def putSlot (p : SlotPlan) (s : State) : State :=
  let t :=
    match p.load with
    | some (id, h) => loadHead id h s
    | none => s
  t.onFre fun f =>
    { f with txWord := p.line, htxd := p.line.map (lineBit f.inUse.width 0), htxen := p.line.isSome,
             account := some p.account, rxWord := none, slot0Due := false }

/-- A talker's traffic fields are written for a slot of frame k (R5, R123, R126): last word sent takes the word;
an underrun is counted, and reported by an event where underrun reported was clear. -/
def writeTraffic (k : Word) (t : Traffic) (s : State) : State :=
  match t with
  | .wordSent id w =>
    s.onRsc fun c =>
      { c with records := updateRec id (ClaimRec.onTalk fun p => { p with lastWord := some w }) c.records }
  | .underrun id =>
    let u := s.onRsc fun c =>
      { c with records :=
          updateRec id (ClaimRec.onTalk fun p =>
            { p with underruns := satByte p.underruns, reported := true }) c.records }
    match recordOf s.rsc.records id with
    | some r =>
      match r.body with
      | .talk p =>
        if p.reported then u
        else eventFromTransmit r.host ⟨.underrun r.slot, frameField k⟩ u
      | .listen => u
    | none => u

/-- An optional traffic write. -/
def applyTraffic (k : Word) (t : Option Traffic) (s : State) : State :=
  match t with
  | some t => writeTraffic k t s
  | none => s

/-- The slot whose start comes next: slot 0 at the edge that opened the frame, or the slot that begins at the
next bit position (R67). -/
def nextSlotStart (s : State) : Option Nat :=
  if s.fre.slot0Due then
    if inFrame s = true ∧ s.rsc.awaiting.isNone = true then some 0 else none
  else if risingNext s = true ∧ isSlotStart s.fre.inUse (s.fre.bitPos + 1) = true ∧
      s.fre.bitPos + 1 < s.fre.inUse.bits then
    some ((s.fre.bitPos + 1) / s.fre.inUse.width)
  else none

/-- SLOT_START's step: at the slot start the FRE decides the slot's word on the active slot map, once the RSC
has built it (R67, R87, R123, R183). A slot start other than slot 0's is the rising edge that begins the slot. -/
def slotStartStep (s : State) : Option State :=
  match nextSlotStart s with
  | some slot =>
    if rscQuiet s then
      let p := planSlot s s.rsc.map s.rsc.records slot
      let t := applyTraffic s.fre.frame p.traffic (putSlot p s)
      some (if s.fre.slot0Due then t
        else t.onFre fun f =>
          { f with bitPos := f.bitPos + 1, clkHigh := true, hbclk := clockOut f true,
                   hfsync := syncOut f (f.bitPos + 1) })
    else none
  | none => none

/-- SLOT_START (R123 to R126). -/
def execSlotStart (s : State) : Host.Outcome State Fault Refusal := settle s (slotStartStep s)

/-- AWAITING_CONFIRMATION_NOTICE's step: the RSC takes the notice, works out the whole procedure on the store as
it stands, reading the queues, and hands the FRE the map; it changes no record, queues no event and asks for no
flush. The FRE takes slot 0's start, begun at the expected instant, on that map: an entry is loaded at once, the
traffic fields wait for the confirmation (R88, R131). -/
def awaitingStep (s : State) : Option State :=
  match s.rsc.awaiting with
  | some (.sent k) =>
    let r := runProcedure k s.ws.queues s.rsc.records
    let t := s.onRsc fun c => { c with awaiting := some (.worked k r) }
    if s.fre.slot0Due then
      let p := planSlot s r.map r.records 0
      some ((putSlot p t).onFre fun f => { f with provisional := p.traffic })
    else some t
  | _ => none

/-- AWAITING_CONFIRMATION_NOTICE (R88). -/
def execAwaitingConfirmationNotice (s : State) : Host.Outcome State Fault Refusal := settle s (awaitingStep s)

/-! ### Frame syncs and loss of lock (R72, R73, R85 to R94) -/

/-- The map of the frame in progress, with the records it names: the active slot map, or, where the RSC has still to
carry out the procedure of the boundary that opened the frame, the map that procedure comes to on the store and the
queues as they stand (R90, R183; log 31, DESIGN CHOICE: unsafe). -/
def frameMap (s : State) : List MapEntry × List ClaimRec :=
  s.rsc.notices.foldl
    (fun m k =>
      let b := runProcedure k s.ws.queues m.2
      (b.map, b.records))
    (match s.rsc.proc with
      | some p =>
        let b := finishProcedure p.frame p.listeners p.visited s.rsc.records
        (b.map, b.records)
      | none => (s.rsc.map, s.rsc.records))

/-- The hosts a loss notice names: those with a listener record in the map of the abandoned frame that is not
excluded (R90). A host's LISTEN records outside that map, such as a PENDING_ADD one of a key released with DISCARD, are
not asked: R90 says "listener records" alone, and R10 gives the marks of the records met in the map (log 32, DEDUCED:
unsafe). -/
def lossHosts (s : State) : List HostId :=
  let m := frameMap s
  hostList.filter fun h =>
    m.1.any fun e => e.listeners.any fun id =>
      match recordOf m.2 id with
      | some r => decide (r.host = h) && !excluded s r
      | none => false

/-- Loss of lock: the frame in progress is abandoned, its lines released and its work in flight discarded, the
slip counter incremented, a loss notice handed to the WS, a worked-out procedure discarded. A RUNNING engine
goes to ACQUIRING with the acquisition count `acq`, a STOPPING one to STOPPED (R88 to R90, R94, R96, R98). -/
def loseLock (acq : Option Nat) (s : State) : State :=
  let t := toWs (.loss (lossHosts s)) (s.onRsc fun c => { c with awaiting := none })
  if s.fre.engine = .stopping then
    engineEvents .stopped s.fre.frame (t.onFre fun f => { f.toStopped with slip := satHalf f.slip })
  else
    engineEvents .acquiring s.fre.frame (t.onFre fun f =>
      { f.releaseTx with
        engine := .acquiring, acq := acq, slip := satHalf f.slip, rxWord := none, account := none,
        provisional := none, slot0Due := false })

/-- The acquisition count at a falling edge: a present count goes up by 1 and holds at N + 1 (R85). -/
def countUp (n : Nat) (acq : Option Nat) : Option Nat := acq.map fun c => min (c + 1) (n + 1)

/-- Lock: the recognition is the opening boundary of the run, taken in one part (R86, R183). -/
def lockStep (rxd : Bool) (s : State) : State :=
  let t := noticeToRsc (nextFrame s) (openFrame (nextFrame s) s)
  engineEvents .running (nextFrame s) (t.onFre fun f =>
    { f with engine := .running, acq := none, clkHigh := false, prevSync := some true, slot0Due := false,
             account := none, provisional := none, rxWord := some (shiftIn none rxd) })

/-- The confirmation of a boundary by its expected sync: the worked-out procedure is put into effect whole, the
counter advances, the notices are sent. A RUNNING engine opens frame k, slot 0's traffic fields being written; a
STOPPING one takes its closing boundary (R88, R91, R92, R93). Where the last vote was removed and a RUN was taken both
since the expected instant, at which the engine was RUNNING and slot 0 was loaded, the stop counts as cancelled and slot
0 goes on as loaded, its traffic fields written; R91 and R93 do not name this case (log 29, DESIGN CHOICE: unsafe). -/
def confirmStep (k : Word) (r : BoundaryResult) (rxd : Bool) (s : State) : State :=
  let t := openFrame k (enact r (s.onRsc fun c => { c with awaiting := none }))
  if s.fre.engine = .stopping then
    closeRun (t.onFre fun f => { f with clkHigh := false, prevSync := some true })
  else
    (applyTraffic k s.fre.provisional t).onFre fun f =>
      { f with clkHigh := false, prevSync := some true, provisional := none,
               rxWord := some (shiftIn none rxd) }

/-- FRAME_SYNC's step: the sample of HFSYNC is high after a low one (R72), and the recognition goes to the
engine logic (R73): in ACQUIRING it restarts the count or completes lock (R85, R86); at the expected edge it
confirms the boundary (R88); at any other it is a loss of lock, whether or not the RSC has taken the notice of the
boundary before (R89, R183). After a loss in slot 0 with that notice untaken no slot end bounds the RSC's taking of it, and
a lock is taken with it outstanding, its own notice behind it (log 31, DESIGN CHOICE: unsafe). -/
def frameSyncStep (rxd : Bool) (s : State) : Option State :=
  if recognised s.fre true then
    match s.fre.engine with
    | .stopped => none
    | .acquiring =>
      if countUp s.fre.inUse.bits s.fre.acq = some s.fre.inUse.bits then some (lockStep rxd s)
      else some (s.onFre fun f => { f with acq := some 0, clkHigh := false, prevSync := some true })
    | .running | .stopping =>
      if s.fre.clkHigh then
        match s.rsc.awaiting with
        | some (.worked k r) => some (confirmStep k r rxd s)
        | some (.sent _) => none
        | none => some ((loseLock (some 0) s).onFre fun f => { f with clkHigh := false, prevSync := some true })
      else none
  else none

/-- FRAME_SYNC (R72, R73). -/
def execFrameSync (rxd : Bool) (s : State) : Host.Outcome State Fault Refusal :=
  settle s (frameSyncStep rxd s)

/-- MISSING_SYNC's step: at the falling edge after an expected instant no frame sync is recognised (R89). By
that edge the RSC has worked out the procedure of the notice and slot 0's start has been taken on its map (R88). -/
def missingSyncStep (hfsync : Bool) (s : State) : Option State :=
  match s.rsc.awaiting with
  | some (.worked _ _) =>
    if s.fre.engine.isRunning = true ∧ s.fre.clkHigh = true ∧ recognised s.fre hfsync = false then
      some ((loseLock none s).onFre fun f => { f with clkHigh := false, prevSync := some hfsync })
    else none
  | some (.sent _) => none
  | none => none

/-- MISSING_SYNC (R89). -/
def execMissingSync (hfsync : Bool) (s : State) : Host.Outcome State Fault Refusal :=
  settle s (missingSyncStep hfsync s)

/-! ### Slot ends (R133 to R137) -/

/-- The word of a slot with its SELF and FILL flags (R133, R134): the word the part sent, cut to the width, or
the sampled word. -/
def slotWord (f : Fre) (sample : Word) : Word × Bool × Bool :=
  match f.account with
  | some (.sentQueued w) => (cut f.inUse.width w, true, false)
  | some (.sentFill w) => (cut f.inUse.width w, true, true)
  | some .notSent | none => (sample, false, false)

/-- The hosts a slot's word is offered to: those of its listener set that are not excluded (R137). -/
def offeredHosts (s : State) (slot : Nat) : List HostId :=
  (((s.rsc.map.getD slot MapEntry.empty).listeners.filterMap (recordOf s.rsc.records)).filter
    fun r => !excluded s r).map ClaimRec.host

/-- The offers of a slot end (R137). -/
def offersOf (s : State) (slot : Nat) (w : Word × Bool × Bool) : List Offer :=
  (offeredHosts s slot).map fun h => ⟨h, slot, s.fre.rpFrame, w.1, w.2.1, w.2.2⟩

/-- The offers of a slot end go to the WS together; a slot with no listener gives none. -/
def offerAll (os : List Offer) (s : State) : State := if os.isEmpty then s else toWs (.offers os) s

/-- SLOT_END's step: the falling edge at the last bit of a slot, no frame sync recognised at it. The slot's
word is produced and offered to each listener not excluded (R67, R133, R137). -/
def slotEndStep (hfsync rxd : Bool) (s : State) : Option State :=
  if fallingNext s = true ∧ rscQuiet s = true ∧ isSlotEnd s.fre.inUse s.fre.bitPos = true ∧
      recognised s.fre hfsync = false then
    let slot := s.fre.bitPos / s.fre.inUse.width
    let w := slotWord s.fre (shiftIn s.fre.rxWord rxd)
    some ((offerAll (offersOf s slot w) s).onFre fun f =>
      { f with clkHigh := false, hbclk := clockOut f false, prevSync := sampled f hfsync,
               account := none, rxWord := none })
  else none

/-- SLOT_END (R133, R137). -/
def execSlotEnd (hfsync rxd : Bool) (s : State) : Host.Outcome State Fault Refusal :=
  settle s (slotEndStep hfsync rxd s)

/-! ### Plain bit clocks (R66, R68, R72, R75, R76, R85) -/

/-- A rising edge in a frame that is no slot start and no boundary: the bit position advances, the next bit of
the word goes out, and the transmit lines are released where the gap begins (R68, R75). -/
def Fre.riseInFrame (f : Fre) : Fre :=
  let p := f.bitPos + 1
  let g := { f with bitPos := p, clkHigh := true, hbclk := clockOut f true, hfsync := syncOut f p }
  match slotAt f.inUse p with
  | some (_, j) => { g with htxd := f.txWord.map (lineBit f.inUse.width j) }
  | none => g.releaseTx

/-- A falling edge in a frame that is no slot end and no recognition: HFSYNC is sampled by a follower, HRXD in
the bits of a slot (R72, R76). -/
def Fre.fallInFrame (hfsync rxd : Bool) (f : Fre) : Fre :=
  let g := { f with clkHigh := false, hbclk := clockOut f false, prevSync := sampled f hfsync }
  match slotAt f.inUse f.bitPos with
  | some _ => { g with rxWord := some (shiftIn f.rxWord rxd) }
  | none => g

/-- BIT_CLOCK's step: an edge of HBCLK that is no slot start, slot end, recognition or boundary. In ACQUIRING a
falling edge counts and samples HFSYNC (R72, R85). -/
def bitClockStep (edge : Edge) (hfsync rxd : Bool) (s : State) : Option State :=
  match s.fre.engine, edge with
  | .stopped, _ => none
  | .acquiring, .rising => some (s.onFre fun f => { f with clkHigh := true })
  | .acquiring, .falling =>
    if recognised s.fre hfsync then none
    else some (s.onFre fun f =>
      { f with clkHigh := false, acq := countUp f.inUse.bits f.acq, prevSync := some hfsync })
  | _, .rising =>
    if risingNext s = true ∧ s.fre.bitPos + 1 < s.fre.inUse.bits ∧
        isSlotStart s.fre.inUse (s.fre.bitPos + 1) = false
    then some (s.onFre Fre.riseInFrame) else none
  | _, .falling =>
    if fallingNext s = true ∧ isSlotEnd s.fre.inUse s.fre.bitPos = false ∧
        recognised s.fre hfsync = false
    then some (s.onFre (Fre.fallInFrame hfsync rxd)) else none

/-- BIT_CLOCK (R66, R72, R75, R76, R85). -/
def execBitClock (edge : Edge) (hfsync rxd : Bool) (s : State) : Host.Outcome State Fault Refusal :=
  settle s (bitClockStep edge hfsync rxd s)

end Sys2Proof.Machine
end

