-- ==== Sys2Proof/Machine/Ports.lean ====
section
/-! DEFINITION. The host ports: transactions, the judgement of request frames, ATTACH, DETACH, SET_ATTENTION
(R159 to R175). -/

namespace Sys2Proof.Machine

/-! ### Transactions -/

/-- The status byte of port h at this moment (R160). -/
def statusNow (s : State) (h : HostId) : Byte :=
  statusByte (s.port h) (!(s.evq h).events.isEmpty) (s.store h).latch s.fre.engine.isRunning

/-- SELn goes low: the port opens a transaction, captures the status byte and drives its first bit on SDOn (R159,
R160). A port whose select is low already opens none. -/
def openingStep (h : HostId) (s : State) : Option State :=
  if (s.port h).selLow then none
  else some (s.onPort h fun p =>
    { p with selLow := true, framer := .receiving (statusNow s h), sdoLine := some (statusNow s h).msb })

/-- TRANSACTION_OPENING (R160). -/
def execTransactionOpening (h : HostId) (s : State) : Host.Outcome State Fault Refusal :=
  settle s (openingStep h s)

/-- The latches a status byte showed are cleared once all its eight bits have been clocked out (R161). -/
def clearShown (status : Byte) (bits : Nat) (p : Port) : Port :=
  if 8 ≤ bits then
    { p with dropped := p.dropped && !showsDropped status,
             frameError := p.frameError && !showsFrameError status }
  else p

/-- SELn goes high: the transaction in which the port sent `stream` ends after `bits` bits. The latches shown
are cleared, the framer returns to idle and SDOn goes to high impedance (R159, R161, R162). -/
def endTransaction (h : HostId) (status : Byte) (stream : List Byte) (bits : Nat) (s : State) : State :=
  s.onPort h fun p =>
    { clearShown status bits p with
      framer := .idle, selLow := false, sdoLine := none, sdo := shiftOut stream bits }

/-- A transaction that part reset has ended for the port: SELn goes high, nothing else; SDOn has been at high
impedance since the reset (R174). -/
def endSelect (h : HostId) (s : State) : State := s.onPort h fun p => { p with selLow := false }

/-- A status transaction ends after `bits` bits (R167). -/
def statusStep (h : HostId) (bits : Nat) (s : State) : Option State :=
  if (s.port h).selLow then
    match (s.port h).framer with
    | .receiving status => some (endTransaction h status [status] bits s)
    | .idle => some (endSelect h s)
  else none

/-- STATUS (R167). -/
def execStatus (h : HostId) (bits : Nat) (s : State) : Host.Outcome State Fault Refusal :=
  settle s (statusStep h bits s)

/-- A collect transaction ends after `bits` bits. Where its status byte showed RESPONSE_READY the part has sent
the held response frame, which is released if the last bit of its CRC byte was clocked out (R166). One that
ends before its first byte is complete is a status transaction (R159). -/
def collectStep (h : HostId) (bits : Nat) (s : State) : Option State :=
  if (s.port h).selLow then
    match (s.port h).framer with
    | .receiving status =>
      match (s.port h).held with
      | some r =>
        if showsResponse status = true ∧ 8 ≤ bits then
          let t := endTransaction h status (status :: responseFrame r) bits s
          if 8 * (1 + (responseFrame r).length) ≤ bits
          then some (t.onPort h fun p => { p with held := none })
          else some t
        else some (endTransaction h status [status] bits s)
      | none => some (endTransaction h status [status] bits s)
    | .idle => some (endSelect h s)
  else none

/-- COLLECT (R166). -/
def execCollect (h : HostId) (bits : Nat) (s : State) : Host.Outcome State Fault Refusal :=
  settle s (collectStep h bits s)

/-! ### Request frames -/

/-- The refusal the port's own checks give a request of a known kind, in the action that accepts it (R164,
R168, R169, R181): NOT_ATTACHED; STATE or BAD_ARGUMENT for ATTACH; BAD_ARGUMENT for DETACH. -/
def portRefusal (state : PortState) (k : Kind) (payload : List Byte) : Option Result :=
  if state = .detached ∧ k.passedDetached = false then some .notAttached
  else if k = .attach ∧ state ≠ .detached then some .state
  else if (k = .attach ∨ k = .detach) ∧ payload ≠ [] then some .badArgument
  else none

/-- A well-formed frame is judged against the port at the end of its transaction (R163, R164, R178). -/
def judgeFrame (f : Frame) (p : Port) : Port :=
  if p.inProgress.isSome ∨ p.held.isSome ∨ p.state = .detaching then { p with dropped := true }
  else
    match Kind.ofByte f.kind with
    | none => { p with held := some ⟨f.kind, f.tag, .unknownKind, []⟩ }
    | some k =>
      match portRefusal p.state k f.payload with
      | some res => { p with held := some ⟨f.kind, f.tag, res, []⟩ }
      | none => { p with inProgress := some ⟨k, f.tag, f.payload, [], HostReport.empty⟩ }

/-- The framer's judgement (R162) and, of a well-formed frame, the port's (R163). -/
def receiveFrame (bytes : List Byte) (extraBits : Nat) (p : Port) : Port :=
  match parseFrame bytes extraBits with
  | some f => judgeFrame f p
  | none => { p with frameError := true }

/-- A request transaction ends (R162). The first byte decides the shape (R159): 0xFF makes it a status
transaction, 0x00 a collect, and without a whole first byte it counts as a status transaction. -/
def requestStep (h : HostId) (bytes : List Byte) (extraBits : Nat) (s : State) : Option State :=
  let bits := 8 * bytes.length + extraBits
  match bytes with
  | [] => statusStep h bits s
  | first :: _ =>
    if first = 0xFF#8 then statusStep h bits s
    else if first = 0x00#8 then collectStep h bits s
    else if (s.port h).selLow then
      match (s.port h).framer with
      | .receiving status =>
        some ((endTransaction h status [status] bits s).onPort h (receiveFrame bytes extraBits))
      | .idle => some (endSelect h s)
    else none

/-- REQUEST_FRAME (R162, R163, R164). -/
def execRequestFrame (h : HostId) (bytes : List Byte) (extraBits : Nat) (s : State) :
    Host.Outcome State Fault Refusal :=
  settle s (requestStep h bytes extraBits s)

/-! ### The port's own requests -/

/-- The port carries out its ATTACH (R168). -/
def attachStep (h : HostId) (s : State) : Option State :=
  match requestOf s h .attach with
  | some r =>
    match portRefusal (s.port h).state .attach r.payload with
    | some res => some (answer h res [] s)
    | none =>
      let session := (s.port h).session + 1#8
      some (answer h .ok [session] (s.onPort h fun p =>
        { p with session := session, state := .attached, mask := ⟨true, true, false⟩ }))
  | none => none

/-- ATTACH (R168). -/
def execAttach (h : HostId) (s : State) : Host.Outcome State Fault Refusal := settle s (attachStep h s)

/-- The port carries out its DETACH: it goes to DETACHING, keeps DETACH in progress, clears its mask and hands
a session-end notice to each of the four owners (R169). The offers of slot ends taken before are delivered (R10) and
none is to a DETACHING host (R111, R138), so the port goes to DETACHING once no offer to its host is outstanding (log
11, DEDUCED: unsafe). -/
def detachStep (h : HostId) (s : State) : Option State :=
  match requestOf s h .detach with
  | some r =>
    match (s.port h).state with
    | .detaching => none
    | .detached => some (answer h .notAttached [] s)
    | .attached =>
      if r.payload ≠ [] then some (answer h .badArgument [] s)
      else if s.ws.fromFre.any (offersTo h) then none
      else some (s.onPort h fun p =>
        { p with state := .detaching, mask := ⟨false, false, false⟩,
                 toReport := ⟨true, true, true, true⟩ })
  | none => none

/-- DETACH (R169). -/
def execDetach (h : HostId) (s : State) : Host.Outcome State Fault Refusal := settle s (detachStep h s)

/-- The port carries out its SET_ATTENTION: the mask is replaced whole (R172). -/
def setAttentionStep (h : HostId) (s : State) : Option State :=
  match requestOf s h .setAttention with
  | some r =>
    if (s.port h).state ≠ .attached then some (answer h .notAttached [] s)
    else
      match parseMask r.payload with
      | some m => some (answer h .ok [maskByte m] (s.onPort h fun p => { p with mask := m }))
      | none => some (answer h .badArgument [] s)
  | none => none

/-- SET_ATTENTION (R172). -/
def execSetAttention (h : HostId) (s : State) : Host.Outcome State Fault Refusal :=
  settle s (setAttentionStep h s)

end Sys2Proof.Machine
end

