-- ==== Sys2Proof/Machine/Reset.lean ====
section
/-! DEFINITION. Part reset and the stop of REFCLK (R1, R174). -/

namespace Sys2Proof.Machine

/-- Part reset: every block at its reset state, whatever is in flight (R19, R24, R61, R100, R116, R132, R148,
R158, R174). The select inputs keep their levels: an open transaction is ended for the port, SDOn is at high
impedance though SELn is low, and the next transaction opens at the next falling edge of SELn (R174). The queue of commands is the sender's and is kept. -/
def resetPart (s : State) : State :=
  { State.reset with
    ports := s.ports.mapHosts fun _ p => { Port.reset with selLow := p.selLow }
    pending := s.pending }

/-- PART_RESET (R174). -/
def execPartReset (s : State) : Host.Outcome State Fault Refusal := .next (resetPart s)

/-- REFCLK_STOP: what the part does from here on is not specified (R1). -/
def execRefclkStop (_s : State) : Host.Outcome State Fault Refusal := .fault .refclkStopped

end Sys2Proof.Machine
end

