-- ==== Sys2Proof/Machine/Sessions.lean ====
section
/-! DEFINITION. The four owners' parts of a session end (R11, R83, R110, R157), each ending in a report to the
port (R170). -/

namespace Sys2Proof.Machine

/-! ### RSC (R11, R12) -/

/-- What a session end leaves of a record of the host: ACTIVE and PENDING_RELEASE(DRAIN) go to
PENDING_RELEASE(DISCARD) (R11). -/
def ClaimRec.sessionEnded (h : HostId) (r : ClaimRec) : ClaimRec :=
  if r.host = h then { r with state := .pendingRelease .discard } else r

/-- The record is withdrawn by the session end of the host (R11). -/
def ClaimRec.withdrawnBy (h : HostId) (r : ClaimRec) : Bool := decide (r.host = h ∧ r.state = .pendingAdd)

/-- What the session end of the host asks of the WS for a record: an ending for a withdrawn talker, a flush for
one turned to DISCARD (R11). -/
def sessionAsks (h : HostId) (r : ClaimRec) : List QueueAsk :=
  if r.host = h ∧ r.isTalk = true then
    match r.state with
    | .pendingAdd => [.ending r.id]
    | .active | .pendingRelease .drain => [.flush r.id]
    | .pendingRelease .discard => []
  else []

/-- RSC_SESSION_END's step, taken between two of the RSC's actions (R11, R23, R88). -/
def rscSessionEndStep (h : HostId) (s : State) : Option State :=
  if (s.port h).toReport.rsc = true ∧ rscFree s = true then
    some (report h (fun o => { o with rsc := false })
      (askWs (s.rsc.records.flatMap (sessionAsks h))
        (s.onRsc fun c =>
          { c with records :=
              (c.records.filter fun r => !r.withdrawnBy h).map (ClaimRec.sessionEnded h) })))
  else none

/-- RSC_SESSION_END (R11). -/
def execRscSessionEnd (h : HostId) (s : State) : Host.Outcome State Fault Refusal :=
  settle s (rscSessionEndStep h s)

/-! ### WS (R110) -/

/-- Every transmit queue of the host flushed (R110). -/
def flushOwner (h : HostId) (qs : List TxQueue) : List TxQueue :=
  qs.map fun q => if q.owner = h then { q with entries := [] } else q

/-- WS_SESSION_END's step: the transmit and receive queues of the host are flushed, their cells returned, its
flags cleared; its quota and drop count are kept (R110). The loss notices not yet taken pass the host over from here on,
so that none undoes the session end (R105, R111, R147; log 30). -/
def wsSessionEndStep (h : HostId) (s : State) : Option State :=
  if (s.port h).toReport.ws then
    let n := txEntries s.ws.queues h + (s.store h).rxq.length
    some (report h (fun o => { o with ws := false })
      (giveBack h n (((passOver h s).onQueues (flushOwner h)).onStore h fun c =>
        { c with rxq := [], latch := false, resume := false, gap := false })))
  else none

/-- WS_SESSION_END (R110). -/
def execWsSessionEnd (h : HostId) (s : State) : Host.Outcome State Fault Refusal :=
  settle s (wsSessionEndStep h s)

/-! ### EVU (R157) -/

/-- EVU_SESSION_END's step (R157). -/
def evuSessionEndStep (h : HostId) (s : State) : Option State :=
  if (s.port h).toReport.evu then
    some (report h (fun o => { o with evu := false }) (s.onEvq h fun _ => ⟨[], false⟩))
  else none

/-- EVU_SESSION_END (R157). -/
def execEvuSessionEnd (h : HostId) (s : State) : Host.Outcome State Fault Refusal :=
  settle s (evuSessionEndStep h s)

/-! ### FRE (R83) -/

/-- FRE_SESSION_END's step: the host's vote is removed as by HALT (R83). -/
def freSessionEndStep (h : HostId) (s : State) : Option State :=
  if (s.port h).toReport.fre then
    some (report h (fun o => { o with fre := false }) (removeVote h s))
  else none

/-- FRE_SESSION_END (R83). -/
def execFreSessionEnd (h : HostId) (s : State) : Host.Outcome State Fault Refusal :=
  settle s (freSessionEndStep h s)

end Sys2Proof.Machine
end

