-- ==== Sys2Proof/Machine/WordStore.lean ====
section
/-! DEFINITION. The Word Store's steps: SET_QUOTA, QUERY_HOST, WRITE_WORDS, READ_WORDS, CLEAR_OVERFLOW, the
offers, loss notices and boundary notices of the FRE, the flushes and endings of the RSC (R101 to R122, R135 to
R145). -/

namespace Sys2Proof.Machine

/-! ### SET_QUOTA (R112, R113) -/

/-- The three values a SET_QUOTA response carries: quota, held count, unallocated pool (R112). -/
def quotaPayload (s : State) (h : HostId) : List Byte :=
  nat16 (s.store h).quota ++ nat16 (s.store h).held ++ nat16 (pool s.ws)

/-- SET_QUOTA's step: the argument, the held count, the unallocated pool, in turn (R112). -/
def setQuotaStep (h : HostId) (s : State) : Option State :=
  match takeFair .setQuota h s with
  | some (r, t) =>
    match parseQuota r.payload with
    | none => some (answer h .badArgument [] t)
    | some q =>
      if q < (s.store h).held then some (answer h .quota (quotaPayload s h) t)
      else if (s.store h).quota < q ∧ pool s.ws < q - (s.store h).quota then
        some (answer h .quota (quotaPayload s h) t)
      else
        let u := t.onStore h fun c => { c with quota := q }
        some (answer h .ok (quotaPayload u h) u)
  | none => none

/-- SET_QUOTA (R112). -/
def execSetQuota (h : HostId) (s : State) : Host.Outcome State Fault Refusal := settle s (setQuotaStep h s)

/-! ### QUERY_HOST (R114, R115) -/

/-- The WS's part, of one moment (R115). -/
def wsReport (s : State) (g : HostId) : WsReport :=
  { quota := (s.store g).quota, held := (s.store g).held, txEntries := txEntries s.ws.queues g,
    rxRecords := (s.store g).rxq.length, latch := (s.store g).latch, resume := (s.store g).resume,
    drops := (s.store g).drops, free := s.ws.free, pool := pool s.ws }

/-- The number of a host's records in a state. -/
def countIn (rs : List ClaimRec) (g : HostId) (st : RecState) : Nat :=
  rs.countP fun r => decide (r.host = g ∧ r.state = st)

/-- The RSC's part, of one moment between two of its requests (R115). -/
def rscReport (s : State) (g : HostId) : RscReport :=
  { pendingAdd := countIn s.rsc.records g .pendingAdd
    active := countIn s.rsc.records g .active
    drain := countIn s.rsc.records g (.pendingRelease .drain)
    discard := countIn s.rsc.records g (.pendingRelease .discard) }

/-- The report after the parts named that were still missing have been read (R115). -/
def readParts (s : State) (g : HostId) (parts : QueryParts) (p : HostReport) : HostReport :=
  { ws := if parts.ws && p.ws.isNone then some (wsReport s g) else p.ws
    rsc := if parts.rsc && p.rsc.isNone then some (rscReport s g) else p.rsc
    vote := if parts.fre && p.vote.isNone then some (s.fre.votes.get g) else p.vote
    port := if parts.port && p.port.isNone then some (s.port g).state else p.port }

/-- The request of port h keeps what has been read of its report. -/
def keepReport (h : HostId) (p : HostReport) (s : State) : State :=
  s.onPort h fun q => { q with inProgress := q.inProgress.map fun r => { r with report := p } }

/-- QUERY_HOST's step: the parts named are read, and the response is handed over once all four have been read.
The WS's part is the WS taking the request (R105); the RSC's waits while the RSC is not free (R88, R115). A host
outside H0 to H3 is refused by the WS. -/
def queryHostStep (h : HostId) (parts : QueryParts) (s : State) : Option State :=
  match requestOf s h .queryHost with
  | none => none
  | some r =>
    match parseHost r.payload with
    | none =>
      if mayTake s .ws h then some (answer h .badArgument [] (markServed .ws h s)) else none
    | some g =>
      let p := readParts s g parts r.report
      let takesWs := parts.ws && r.report.ws.isNone
      let takesRsc := parts.rsc && r.report.rsc.isNone
      if (takesWs = true ∧ mayTake s .ws h = false) ∨ (takesRsc = true ∧ rscFree s = false) ∨ p = r.report
      then none
      else
        let t := if takesWs then markServed .ws h s else s
        match p.ws, p.rsc, p.vote, p.port with
        | some w, some c, some v, some q => some (answer h .ok (hostPayload w c v q) t)
        | _, _, _, _ => some (keepReport h p t)

/-- QUERY_HOST (R114, R115). -/
def execQueryHost (h : HostId) (parts : QueryParts) (s : State) : Host.Outcome State Fault Refusal :=
  settle s (queryHostStep h parts s)

/-! ### WRITE_WORDS (R119 to R122) -/

/-- The room available: the smaller of the queue room and the cell room (R120). -/
def roomFor (s : State) (h : HostId) (depth queued : Nat) : Nat :=
  min (depth - queued) ((s.store h).quota - (s.store h).held)

/-- An accepted write's effect on the record: underrun reported cleared, auto-renew applied (R40, R121). -/
def ClaimRec.written (r : ClaimRec) : ClaimRec :=
  match r.body with
  | .talk t =>
    let q := { r with body := .talk { t with reported := false } }
    if t.autoRenew then q.renewed else q
  | .listen => r

/-- The outcome of the checks of WRITE_WORDS on the record, the queue and the cells, in turn, and of an accepted
write (R120, R121). -/
def writeTo (h : HostId) (slot : Nat) (es : List TxEntry) (s : State) : State :=
  match keyForward s.rsc.records h slot .talk with
  | none =>
    if keyLeaving s.rsc.records h slot .talk then answer h .releasing [] s else answer h .noClaim [] s
  | some r =>
    match r.body with
    | .listen => answer h .noClaim [] s
    | .talk t =>
      let queued := (entriesOf s.ws.queues r.id r.host).length
      if t.depth < queued + es.length then
        answer h .queueFull [nat8 (roomFor s h t.depth queued)] s
      else if (s.store h).quota < (s.store h).held + es.length then
        answer h .noCells [nat8 (roomFor s h t.depth queued)] s
      else
        let u := appendEntries r.id h es
          (s.onRsc fun c => { c with records := updateRec r.id ClaimRec.written c.records })
        answer h .ok [nat8 (queued + es.length), nat8 (roomFor u h t.depth (queued + es.length))] u

/-- WRITE_WORDS's step: one action on the record and the queue, taken by the RSC between two of its own, without
its arbiter (R119). -/
def writeWordsStep (h : HostId) (s : State) : Option State :=
  if rscFree s then
    match takeFair .writeWords h s with
    | some (r, t) =>
      match parseWrite r.payload with
      | none => some (answer h .badArgument [] t)
      | some (slot, es) => some (writeTo h slot es t)
    | none => none
  else none

/-- WRITE_WORDS (R119 to R121). -/
def execWriteWords (h : HostId) (s : State) : Host.Outcome State Fault Refusal := settle s (writeWordsStep h s)

/-! ### READ_WORDS (R144, R145) -/

/-- The payload of an OK READ_WORDS (Table 27). -/
def readPayload (left : Nat) (latch : Bool) (taken : List RxRecord) : List Byte :=
  nat16 left ++ [yesNo latch, nat8 taken.length] ++ taken.flatMap RxRecord.encode

/-- READ_WORDS's step: the oldest records are removed and their cells returned (R144). -/
def readWordsStep (h : HostId) (s : State) : Option State :=
  match takeFair .readWords h s with
  | some (r, t) =>
    match parseMaximum Config.maxReadRecords r.payload with
    | none => some (answer h .badArgument [] t)
    | some m =>
      let taken := (s.store h).rxq.take m
      let left := (s.store h).rxq.drop m
      some (answer h .ok (readPayload left.length (s.store h).latch taken)
        (giveBack h taken.length (t.onStore h fun c => { c with rxq := left })))
  | none => none

/-- READ_WORDS (R144). -/
def execReadWords (h : HostId) (s : State) : Host.Outcome State Fault Refusal := settle s (readWordsStep h s)

/-! ### CLEAR_OVERFLOW (R142) -/

/-- CLEAR_OVERFLOW's step; the payload is not examined (R179). A set latch is cleared and resume-pending set;
with the latch clear nothing changes (R142). -/
def clearOverflowStep (h : HostId) (s : State) : Option State :=
  match takeFair .clearOverflow h s with
  | some (_, t) =>
    let payload := yesNo (s.store h).latch :: be16 (s.store h).drops
    if (s.store h).latch then
      some (answer h .ok payload (t.onStore h fun c => { c with latch := false, resume := true }))
    else some (answer h .ok payload t)
  | none => none

/-- CLEAR_OVERFLOW (R142). -/
def execClearOverflow (h : HostId) (s : State) : Host.Outcome State Fault Refusal :=
  settle s (clearOverflowStep h s)

/-! ### Offers (R138 to R141) -/

/-- The record of an offer (R135). -/
def recordOfOffer (o : Offer) (gap : Bool) : RxRecord :=
  { slot := o.slot, tag := o.frame.setWidth 8, word := o.word, self := o.self, fill := o.fill, gap := gap }

/-- The WS's action on an offer to its host (R138). -/
def takeOffer (o : Offer) (s : State) : State :=
  let c := s.store o.host
  if c.latch then s.onStore o.host fun c => { c with drops := satHalf c.drops }
  else if c.resume then s
  else if c.quota ≤ c.held then
    eventFromWs o.host ⟨.rxOverflow, frameField o.frame⟩
      (s.onStore o.host fun c => { c with drops := satHalf c.drops, latch := true })
  else
    charge o.host 1
      (s.onStore o.host fun c => { c with rxq := c.rxq ++ [recordOfOffer o c.gap], gap := false })

/-- The FRE's work for the WS without the offer taken; a slot end whose offers have all been taken is done. -/
def dropOffer (o : Offer) (os : List Offer) (rest : List FreWork) : List FreWork :=
  if (os.erase o).isEmpty then rest else .offers (os.erase o) :: rest

/-- RX_OFFER's step: the WS takes the offer to host h of the oldest slot end with offers outstanding; the offers
of one slot end are taken in any order, and all of them before the next work (R137 to R139, R143). -/
def rxOfferStep (h : HostId) (s : State) : Option State :=
  match s.ws.fromFre with
  | .offers os :: rest =>
    match os.find? fun o => decide (o.host = h) with
    | some o => some (takeOffer o { s with ws := { s.ws with fromFre := dropOffer o os rest } })
    | none => none
  | _ => none

/-- RX_OFFER (R138). -/
def execRxOffer (h : HostId) (s : State) : Host.Outcome State Fault Refusal := settle s (rxOfferStep h s)

/-! ### Notices of the FRE (R105, R143) -/

/-- What the WS holds for each host, changed host by host. -/
def State.onStores (s : State) (f : HostId → WsHost → WsHost) : State :=
  { s with ws := { s.ws with hosts := s.ws.hosts.mapHosts f } }

/-- LOSS_NOTICE's step: gap-pending is set for each host named whose port is ATTACHED when the WS takes the notice (R105,
R140, R171). A host whose session end the WS has taken since the loss is named no more (`passOver`, R147). -/
def lossNoticeStep (s : State) : Option State :=
  match s.ws.fromFre with
  | .loss hs :: rest =>
    some (({ s with ws := { s.ws with fromFre := rest } } : State).onStores fun h c =>
      if h ∈ hs ∧ (s.port h).state = .attached then { c with gap := true } else c)
  | _ => none

/-- LOSS_NOTICE (R105). -/
def execLossNotice (s : State) : Host.Outcome State Fault Refusal := settle s (lossNoticeStep s)

/-- WS_BOUNDARY_NOTICE's step: each host with resume-pending resumes, its gap-pending set (R143). -/
def wsBoundaryStep (s : State) : Option State :=
  match s.ws.fromFre with
  | .boundary :: rest =>
    some (({ s with ws := { s.ws with fromFre := rest } } : State).onStores fun _ c =>
      if c.resume then { c with resume := false, gap := true } else c)
  | _ => none

/-- WS_BOUNDARY_NOTICE (R143). -/
def execWsBoundaryNotice (s : State) : Host.Outcome State Fault Refusal := settle s (wsBoundaryStep s)

/-! ### Flushes and endings (R107 to R109) -/

/-- A request of the RSC is taken. -/
def dropAsk (a : QueueAsk) (s : State) : State := { s with ws := { s.ws with asks := s.ws.asks.erase a } }

/-- QUEUE_FLUSH's step (R107). -/
def queueFlushStep (id : Nat) (s : State) : Option State :=
  if .flush id ∈ s.ws.asks then some (flushQueue id (dropAsk (.flush id) s)) else none

/-- QUEUE_FLUSH (R107). -/
def execQueueFlush (id : Nat) (s : State) : Host.Outcome State Fault Refusal := settle s (queueFlushStep id s)

/-- QUEUE_ENDING's step (R108). -/
def queueEndingStep (id : Nat) (s : State) : Option State :=
  if .ending id ∈ s.ws.asks then some (endQueue id (dropAsk (.ending id) s)) else none

/-- QUEUE_ENDING (R108). -/
def execQueueEnding (id : Nat) (s : State) : Host.Outcome State Fault Refusal := settle s (queueEndingStep id s)

end Sys2Proof.Machine
end

