-- ==== Sys2Proof/Machine/Dispatch.lean ====
section
/-! DEFINITION. The dispatch from commands to their meanings, one arm each. -/

namespace Sys2Proof.Machine

def exec (i : Instr) (s : State) : Host.Outcome State Fault Refusal :=
  match i with
  | .status h bits => Sys2Proof.Machine.execStatus h bits s
  | .collect h bits => Sys2Proof.Machine.execCollect h bits s
  | .requestFrame h bytes extraBits => Sys2Proof.Machine.execRequestFrame h bytes extraBits s
  | .attach h => Sys2Proof.Machine.execAttach h s
  | .detach h => Sys2Proof.Machine.execDetach h s
  | .setAttention h => Sys2Proof.Machine.execSetAttention h s
  | .claim => Sys2Proof.Machine.execClaim s
  | .release => Sys2Proof.Machine.execRelease s
  | .renew => Sys2Proof.Machine.execRenew s
  | .querySlot => Sys2Proof.Machine.execQuerySlot s
  | .format h => Sys2Proof.Machine.execFormat h s
  | .run h => Sys2Proof.Machine.execRun h s
  | .halt h => Sys2Proof.Machine.execHalt h s
  | .queryEngine h => Sys2Proof.Machine.execQueryEngine h s
  | .setQuota h => Sys2Proof.Machine.execSetQuota h s
  | .queryHost h parts => Sys2Proof.Machine.execQueryHost h parts s
  | .writeWords h => Sys2Proof.Machine.execWriteWords h s
  | .readWords h => Sys2Proof.Machine.execReadWords h s
  | .clearOverflow h => Sys2Proof.Machine.execClearOverflow h s
  | .nextEvents h => Sys2Proof.Machine.execNextEvents h s
  | .rscSessionEnd h => Sys2Proof.Machine.execRscSessionEnd h s
  | .wsSessionEnd h => Sys2Proof.Machine.execWsSessionEnd h s
  | .evuSessionEnd h => Sys2Proof.Machine.execEvuSessionEnd h s
  | .freSessionEnd h => Sys2Proof.Machine.execFreSessionEnd h s
  | .boundaryProcedure => Sys2Proof.Machine.execBoundaryProcedure s
  | .leaseExpiry => Sys2Proof.Machine.execLeaseExpiry s
  | .awaitingConfirmationNotice => Sys2Proof.Machine.execAwaitingConfirmationNotice s
  | .leadInEnd => Sys2Proof.Machine.execLeadInEnd s
  | .frameBoundary => Sys2Proof.Machine.execFrameBoundary s
  | .expectedInstant => Sys2Proof.Machine.execExpectedInstant s
  | .frameSync rxd => Sys2Proof.Machine.execFrameSync rxd s
  | .missingSync hfsync => Sys2Proof.Machine.execMissingSync hfsync s
  | .slotStart => Sys2Proof.Machine.execSlotStart s
  | .slotEnd hfsync rxd => Sys2Proof.Machine.execSlotEnd hfsync rxd s
  | .rxOffer h => Sys2Proof.Machine.execRxOffer h s
  | .lossNotice => Sys2Proof.Machine.execLossNotice s
  | .wsBoundaryNotice => Sys2Proof.Machine.execWsBoundaryNotice s
  | .eventTaken source h => Sys2Proof.Machine.execEventTaken source h s
  | .queueFlush queue => Sys2Proof.Machine.execQueueFlush queue s
  | .queueEnding queue => Sys2Proof.Machine.execQueueEnding queue s
  | .partReset => Sys2Proof.Machine.execPartReset s
  | .transactionOpening h => Sys2Proof.Machine.execTransactionOpening h s
  | .bitClock edge hfsync rxd => Sys2Proof.Machine.execBitClock edge hfsync rxd s
  | .refclkStop => Sys2Proof.Machine.execRefclkStop s

end Sys2Proof.Machine
end

