-- ==== Sys2Proof/Safety.lean ====
section
/-! DEFINITION. What counts as a safe state of the part: the laws the spec says the state obeys at all times. Each
is a decidable property of plain data, in the spec's own terms. -/

namespace Sys2Proof.Safety

open Sys2Proof.Machine

/-! ### Cells (R101, R102) -/

/-- The cells of a host are the entries of its transmit queues and the records of its receive queue (R101). -/
def heldIs (s : State) (h : HostId) : Prop :=
  (s.store h).held = txEntries s.ws.queues h + (s.store h).rxq.length

/-- The sum of a host quantity over the four hosts. -/
def sumHosts (f : HostId → Nat) : Nat := f .h0 + f .h1 + f .h2 + f .h3

/-- The cell laws of R101 and R102: held counts count what is held, free and held cells make 1024, no host holds
more than its quota, and the quotas make at most 1024. -/
def CellLaw (s : State) : Prop :=
  (∀ h, heldIs s h) ∧ s.ws.free + sumHosts (fun h => (s.store h).held) = Config.cells ∧
  (∀ h, (s.store h).held ≤ (s.store h).quota) ∧ sumHosts (fun h => (s.store h).quota) ≤ Config.cells

/-! ### The claim store (R3, R4, R13, R14) -/

/-- The record is in ACTIVE or PENDING_RELEASE. -/
def inForce (r : ClaimRec) : Bool := decide (r.state ≠ .pendingAdd)

/-- The first law of R13: on every slot at most one TALK record in PENDING_ADD or ACTIVE, and at most one in ACTIVE
or PENDING_RELEASE. -/
def TalkLaw (rs : List ClaimRec) : Prop :=
  ∀ slot, rs.countP (fun r => r.isTalk && decide (r.slot = slot) && r.forward) ≤ 1 ∧
    rs.countP (fun r => r.isTalk && decide (r.slot = slot) && inForce r) ≤ 1

/-- The second law of R13: for every key at most one record in PENDING_ADD or ACTIVE, and at most one in ACTIVE or
PENDING_RELEASE. -/
def KeyLaw (rs : List ClaimRec) : Prop :=
  ∀ h slot role, rs.countP (fun r => r.hasKey h slot role && r.forward) ≤ 1 ∧
    rs.countP (fun r => r.hasKey h slot role && inForce r) ≤ 1

/-- R14: no host has more than 32 records. -/
def CountLaw (rs : List ClaimRec) : Prop := ∀ h, recordCount rs h ≤ Config.maxClaims

/-- R4: lease remaining is present exactly in a leased record past PENDING_ADD, and is at most the lease. -/
def leaseOk (r : ClaimRec) : Prop :=
  match r.remaining with
  | some n => r.lease ≠ 0#16 ∧ r.state ≠ .pendingAdd ∧ n.toNat ≤ r.lease.toNat
  | none => r.lease = 0#16 ∨ r.state = .pendingAdd

/-- A record that the removal step deletes whatever its queue holds (R46). -/
def leaving (r : ClaimRec) : Bool :=
  match r.state with
  | .pendingRelease .discard => true
  | .pendingRelease .drain => !r.isTalk
  | .pendingAdd | .active => false

/-- The laws of a list of records under slot count F: R13, R14, R4, R3 (every slot below F), and the model's own
identities, distinct and below the next one (log 9). -/
structure RecordsLaw (rs : List ClaimRec) (slots nextId : Nat) : Prop where
  talk   : TalkLaw rs
  key    : KeyLaw rs
  count  : CountLaw rs
  lease  : ∀ r ∈ rs, leaseOk r
  slot   : ∀ r ∈ rs, r.slot < slots
  unique : (rs.map ClaimRec.id).Nodup
  below  : ∀ r ∈ rs, r.id < nextId

/-- The store obeys its laws, and so does the store a worked-out procedure would leave. While the lease step of a
boundary procedure is under way its removal step is done, and no notice awaits confirmation. -/
structure StoreLaw (s : State) : Prop where
  store  : RecordsLaw s.rsc.records s.fre.fmt.slots s.rsc.nextId
  worked : ∀ k r, s.rsc.awaiting = some (.worked k r) → RecordsLaw r.records s.fre.fmt.slots s.rsc.nextId
  proc   : s.rsc.proc.isSome = true → ∀ r ∈ s.rsc.records, leaving r = false
  one    : s.rsc.proc.isSome = true → s.rsc.awaiting = none

/-! ### Ports and events (R149, R160, R169, R173) -/

/-- ATN is asserted exactly while a condition of the mask holds (R173). -/
def AtnLaw (s : State) : Prop := ∀ h, (s.port h).atn = attentionNow s h

/-- A port holds at most one of a request in progress and a response; a DETACHING port has its DETACH in progress
with an owner yet to report; any other port has no owner yet to report; a port that is not ATTACHED has an empty
mask (R160, R169, R170, R173). -/
def portOk (p : Port) : Prop :=
  (p.inProgress.isSome = true → p.held = none) ∧
  (p.state = .detaching →
    (∃ r, p.inProgress = some r ∧ r.kind = .detach) ∧ p.toReport.isEmpty = false) ∧
  (p.state ≠ .detaching → p.toReport.isEmpty = true) ∧
  (p.state ≠ .attached → p.mask = ⟨false, false, false⟩)

/-- The port law over the four ports. -/
def PortLaw (s : State) : Prop := ∀ h, portOk (s.port h)

/-- SDOn is driven exactly while a transaction is open, and SELn is low then (R159, R174). -/
def SdoLaw (s : State) : Prop :=
  ∀ h, ((s.port h).sdoLine.isSome = true ↔ (s.port h).framer ≠ .idle) ∧
    ((s.port h).framer ≠ .idle → (s.port h).selLow = true)

/-- An event queue holds at most 16 records, and none while its port is DETACHED (R149); none either once the EVU has
acted on a session end. -/
def EventLaw (s : State) : Prop :=
  ∀ h, (s.evq h).events.length ≤ Config.maxEvents ∧
    ((s.port h).state ≠ .attached → (s.port h).toReport.evu = false → (s.evq h).events = [])

/-- The overflow latch and resume-pending are never set together (R138). -/
def LatchLaw (s : State) : Prop := ∀ h, ¬((s.store h).latch = true ∧ (s.store h).resume = true)

/-! ### The engine (R65, R75, R82) -/

/-- Past STOPPED the format in use is the format record (R65). -/
def FormatLaw (s : State) : Prop := s.fre.engine ≠ .stopped → s.fre.inUse = s.fre.fmt

/-- The vote set is empty exactly while the engine is STOPPED or STOPPING (R82, R83). -/
def VoteLaw (s : State) : Prop :=
  noVotes s.fre.votes = true ↔ (s.fre.engine = .stopped ∨ s.fre.engine = .stopping)

/-- The part drives HTXD exactly while HTXEN is asserted, and it does so only in a frame (R74, R75); slot 0's start
is due only in a frame (R67). -/
def LineLaw (s : State) : Prop :=
  s.fre.txWord.isSome = s.fre.htxen ∧ s.fre.htxd.isSome = s.fre.htxen ∧
  (inFrame s = false → s.fre.htxen = false ∧ s.fre.slot0Due = false)

/-! ### Received words (R135) -/

/-- FILL is never set without SELF (R135), in the receive queues and in the offers on their way to them. -/
def FillLaw (s : State) : Prop :=
  (∀ h, ∀ r ∈ (s.store h).rxq, r.fill = true → r.self = true) ∧
  ∀ w ∈ s.ws.fromFre, ∀ os, w = .offers os → ∀ o ∈ os, o.fill = true → o.self = true

/-- No offer to a host is outstanding while its port is DETACHING (R111, R138; log 11). -/
def OfferLaw (s : State) : Prop :=
  ∀ h, (s.port h).state = .detaching → s.ws.fromFre.any (offersTo h) = false

/-! ### The reset tables (R19, R20, R64, R100, R116, R148, R158, R174) -/

/-- A port after part reset (R174). -/
def portCleared (p : Port) : Prop :=
  p.state = .detached ∧ p.session = 0#8 ∧ p.framer = .idle ∧ p.inProgress = none ∧ p.held = none ∧
  p.dropped = false ∧ p.frameError = false ∧ p.mask = ⟨false, false, false⟩ ∧ p.toReport.isEmpty = true ∧
  p.atn = false ∧ p.sdoLine = none

/-- The RSC after part reset (R19, R20, R24, R61). -/
def rscCleared (c : Rsc) : Prop :=
  c.records = [] ∧ c.map = List.replicate 64 MapEntry.empty ∧ c.seq = 0#16 ∧ c.pointer = .h3 ∧
  c.notices = [] ∧ c.proc = none ∧ c.awaiting = none

/-- The FRE, the Transmit Path and the Receive Path after part reset (R64, R75, R100, R132, R148). -/
def freCleared (f : Fre) : Prop :=
  f.engine = .stopped ∧ (∀ h, f.votes.get h = false) ∧ f.fmt = ⟨32, 16, 0, .bit, .follower, 8, 0#32⟩ ∧
  f.inUse = f.fmt ∧ f.bitPos = 0 ∧ f.acq = none ∧ f.frame = 0#32 ∧ f.slip = 0#16 ∧ f.txWord = none ∧
  f.rxWord = none ∧ f.account = none ∧ f.provisional = none ∧ f.rpFrame = 0#32 ∧ f.hbclk = none ∧
  f.hfsync = none ∧ f.htxd = none ∧ f.htxen = false

/-- What the WS holds for a host after part reset (R116, R148). -/
def storeCleared (c : WsHost) : Prop :=
  c.quota = 256 ∧ c.held = 0 ∧ c.rxq = [] ∧ c.latch = false ∧ c.resume = false ∧ c.gap = false ∧
  c.drops = 0#16

/-- The state right after part reset. -/
def AfterReset (t : State) : Prop :=
  (∀ h, portCleared (t.port h)) ∧ rscCleared t.rsc ∧ freCleared t.fre ∧ (∀ h, storeCleared (t.store h)) ∧
  t.ws.free = 1024 ∧ t.ws.queues = [] ∧ t.ws.asks = [] ∧ t.ws.fromFre = [] ∧
  (∀ h, t.evq h = ⟨[], false⟩) ∧ t.evu.fromRsc = [] ∧ t.evu.fromTransmit = [] ∧ t.evu.fromWs = [] ∧
  t.evu.fromFre = []

/-! ### Frames -/

/-- A port without its ATN output, which AtnLaw fixes, and without the model's bookkeeping of waiting requests
(log 13). -/
def portView (p : Port) : Port :=
  { p with atn := false, inProgress := p.inProgress.map fun r => { r with passed := [] } }

/-- Every port but h's is as before. -/
def OthersKept (s t : State) (h : HostId) : Prop := ∀ g, g ≠ h → portView (t.port g) = portView (s.port g)

/-- Every port is as before. -/
def PortsKept (s t : State) : Prop := ∀ g, portView (t.port g) = portView (s.port g)

/-- Every block behind the ports is as before. -/
def BlocksKept (s t : State) : Prop :=
  t.rsc = s.rsc ∧ t.fre = s.fre ∧ t.ws = s.ws ∧ t.evu = s.evu ∧ t.pending = s.pending

/-- The request in progress at port h is r, of kind k. -/
def Asked (s : State) (h : HostId) (k : Kind) (r : Request) : Prop :=
  (s.port h).inProgress = some r ∧ r.kind = k

/-- Port h ends its request r and holds the response to it; the rest of the port, and every other port, is as
before (R165). -/
def Replied (s t : State) (h : HostId) (r : Request) (res : Result) (payload : List Byte) : Prop :=
  portView (t.port h) =
    { portView (s.port h) with inProgress := none, held := some ⟨r.kind.code, r.tag, res, payload⟩ } ∧
  OthersKept s t h

/-- Port h after an owner's report that leaves `left` yet to report: DETACH completes when none is left
(R170). -/
def reportedPort (p : Port) (left : Owners) : Port :=
  if left.isEmpty then
    match p.inProgress with
    | some r =>
      { p with toReport := left, state := .detached, inProgress := none,
               held := some ⟨r.kind.code, r.tag, .ok, []⟩ }
    | none => { p with toReport := left, state := .detached }
  else { p with toReport := left }

/-- An owner has reported to port h: the rest of the port, and every other port, is as before (R170). -/
def Reported (s t : State) (h : HostId) (left : Owners) : Prop :=
  portView (t.port h) = reportedPort (portView (s.port h)) left ∧ OthersKept s t h

/-- The RSC is ready and its arbiter chooses port h (R21). -/
def Chosen (s : State) (h : HostId) : Prop := rscFree s = true ∧ granted s = some h

/-- The transmit lines carry the first bit of a word of the width in use (R68, R74). -/
def Driven (t : State) (w : Word) : Prop :=
  t.fre.txWord = some w ∧ t.fre.htxen = true ∧ t.fre.htxd = some (w.getLsbD (t.fre.inUse.width - 1))

/-- The transmit lines are undriven (R75). -/
def Undriven (t : State) : Prop := t.fre.txWord = none ∧ t.fre.htxen = false ∧ t.fre.htxd = none

/-! ### What a boundary does to a record, in the spec's terms (R46 to R53) -/

/-- The removal step deletes the record (R46, R47). -/
def removedAt (qs : List TxQueue) (r : ClaimRec) : Bool :=
  leaving r ||
  (r.isTalk && decide (r.state = .pendingRelease .drain) && (entriesOf qs r.id r.host).isEmpty)

/-- The record is in force with a lease that has run out (R50). -/
def ranOut (r : ClaimRec) : Bool :=
  decide (r.state ≠ .pendingAdd ∧ r.lease ≠ 0#16 ∧ r.remaining = some 0#16)

/-- The record is still in the store after steps 1 and 2. -/
def survives (qs : List TxQueue) (r : ClaimRec) : Bool := !removedAt qs r && !ranOut r

/-- The record is held back: another TALK record still stands on its slot (R53). -/
def standsBehind (qs : List TxQueue) (rs : List ClaimRec) (r : ClaimRec) : Bool :=
  r.isTalk &&
  rs.any fun q => decide (q.id ≠ r.id) && q.isTalk && decide (q.slot = r.slot) && survives qs q

/-- The TALK fields that adoption clears (R52). -/
def freshTraffic (b : RecBody) : RecBody :=
  match b with
  | .talk t => .talk { t with underruns := 0#8, reported := false }
  | .listen => .listen

/-- What the boundary makes of a record that survives it (R49, R52, R53). -/
def afterBoundary (qs : List TxQueue) (rs : List ClaimRec) (r : ClaimRec) : ClaimRec :=
  if r.state = .pendingAdd then
    if standsBehind qs rs r then r
    else
      { r with state := .active, body := freshTraffic r.body,
               remaining := if r.lease = 0#16 then none else some r.lease }
  else if r.lease = 0#16 then r
  else { r with remaining := r.remaining.map fun n => n - 1#16 }

/-- The copies of an ENGINE event: one for each ATTACHED host (R98). -/
def engineCopies (s : State) (st : EngineState) (k : Word) : List (HostId × Event) :=
  (hostList.filter fun h => decide ((s.port h).state = .attached)).map
    fun h => (h, ⟨.engine st, k.setWidth 16⟩)

/-- The engine is STOPPED with every line released and nothing in flight (R75, R86, R90, R92). -/
def atRest (f : Fre) : Fre :=
  { f with engine := .stopped, leadIn := false, slot0Due := false, acq := none, txWord := none,
           rxWord := none, account := none, provisional := none, hbclk := none, hfsync := none,
           htxd := none, htxen := false }

/-- The engine is ACQUIRING after a loss of lock, with count `acq` (R89, R90). -/
def lockLost (f : Fre) (acq : Option Nat) : Fre :=
  { f with engine := .acquiring, acq := acq, slot0Due := false, txWord := none, rxWord := none,
           account := none, provisional := none, htxd := none, htxen := false }

end Sys2Proof.Safety
end

