-- ==== Sys2Proof/Certificates/Slice0/Obligations.lean ====
section
/-! DEFINITION. The statements for the provers: what each command does, what it leaves alone, and the laws that every
step keeps. In a statement about a request, `Asked` is the request in progress at a port, `Replied` is the port with
its response held, and BlocksKept, OthersKept and PortsKept are frames (Safety.lean). Every exec hypothesis is one on
the state and the operands alone. -/

section

open Sys2Proof Sys2Proof.Machine Sys2Proof.Safety

/-! ### The block -/

/-- A step of the block carries out the command at the front of its queue on the state with the queue's rest; with
an empty queue the block idles (the model's choice, log 2). -/
def Obligations.StepTakesTheFrontCommand : Prop :=
  ∀ s : State,
    (∀ c rest, s.pending = c :: rest → step s = exec c { s with pending := rest }) ∧
    (s.pending = [] → step s = .next s)

/-- R1: with REFCLK stopped or too fast what the part does is not specified, so that command ends in the fault, in any
state; no other command ends in a fault or a refusal, in any state. -/
def Obligations.OnlyRefclkStopEndsInAFault : Prop :=
  ∀ s : State, exec .refclkStop s = .fault .refclkStopped ∧
    ∀ c : Instr, c ≠ .refclkStop → ∃ t, exec c s = .next t

/-- Part reset leaves every block at its reset values, from any state; the queue of commands is the sender's
(log 2). -/
def Obligations.PartResetClearsEveryBlock : Prop :=
  ∀ s : State, ∃ t, exec .partReset s = .next t ∧ AfterReset t ∧ t.pending = s.pending

/-- The reset state has the reset values of every block, and it obeys every law of this file. -/
def Obligations.ResetStateObeysTheLaws : Prop :=
  AfterReset State.reset ∧ CellLaw State.reset ∧ StoreLaw State.reset ∧ AtnLaw State.reset ∧
  PortLaw State.reset ∧ EventLaw State.reset ∧ LatchLaw State.reset ∧ FormatLaw State.reset ∧
  VoteLaw State.reset ∧ LineLaw State.reset ∧ FillLaw State.reset ∧ OfferLaw State.reset ∧
  SdoLaw State.reset

/-! ### Transactions at a port (R159 to R167) -/

/-- R159, R160: the opening captures the status byte, its eight bits read from the port and the blocks behind it, and
drives its first bit on SDOn. -/
def Obligations.OpeningCapturesStatusByte : Prop :=
  ∀ (s : State) (h : HostId), (s.port h).selLow = false →
    ∃ t st, exec (.transactionOpening h) s = .next t ∧
      portView (t.port h) =
        { portView (s.port h) with framer := .receiving st, selLow := true, sdoLine := some (st.getLsbD 7) } ∧
      OthersKept s t h ∧ BlocksKept s t ∧
      st.getLsbD 7 = decide ((s.port h).state = .attached) ∧
      st.getLsbD 6 = (s.port h).inProgress.isSome ∧
      st.getLsbD 5 = (s.port h).held.isSome ∧
      st.getLsbD 4 = !(s.evq h).events.isEmpty ∧
      st.getLsbD 3 = (s.store h).latch ∧
      st.getLsbD 2 = (s.port h).dropped ∧
      st.getLsbD 1 = (s.port h).frameError ∧
      st.getLsbD 0 = decide (s.fre.engine = .running ∨ s.fre.engine = .stopping)

/-- R159, R161, R167: a status transaction sends the status byte and zeros, ends with SDOn at high impedance, and clears a latch exactly when its status byte
showed it and all eight bits were taken. -/
def Obligations.StatusTransactionClearsLatchesShown : Prop :=
  ∀ (s : State) (h : HostId) (bits : Nat) (st : Byte),
    (s.port h).selLow = true → (s.port h).framer = .receiving st →
    ∃ t, exec (.status h bits) s = .next t ∧
      portView (t.port h) =
        { portView (s.port h) with
          framer := .idle, selLow := false, sdoLine := none, sdo := (t.port h).sdo,
          dropped := (s.port h).dropped && !(decide (8 ≤ bits) && st.getLsbD 2),
          frameError := (s.port h).frameError && !(decide (8 ≤ bits) && st.getLsbD 1) } ∧
      (t.port h).sdo.bytes = (st :: List.replicate (bits / 8) 0x00#8).take (bits / 8) ∧
      OthersKept s t h ∧ BlocksKept s t

/-- R166, Table 22: a collect whose status byte showed RESPONSE_READY sends the response frame after it and then zeros,
and releases the response exactly when the last bit of its CRC byte was clocked out. One whose status byte showed
RESPONSE_READY clear sends zeros and releases nothing, even where a response has become ready meanwhile. Both clear the
latches shown, end with SDOn at high impedance and change nothing else. -/
def Obligations.CollectSendsAndReleasesTheResponse : Prop :=
  ∀ (s : State) (h : HostId) (bits : Nat) (st : Byte) (body : List Byte),
    (s.port h).selLow = true → (s.port h).framer = .receiving st → 8 ≤ bits →
    ∃ t, exec (.collect h bits) s = .next t ∧
      portView (t.port h) =
        { portView (s.port h) with
          framer := .idle, selLow := false, sdoLine := none, sdo := (t.port h).sdo, held := (t.port h).held,
          dropped := (s.port h).dropped && !st.getLsbD 2,
          frameError := (s.port h).frameError && !st.getLsbD 1 } ∧
      OthersKept s t h ∧ BlocksKept s t ∧
      (∀ r, (s.port h).held = some r → st.getLsbD 5 = true →
        body = [r.kind, r.tag, r.result.code, nat8 r.payload.length] ++ r.payload →
        (t.port h).held = (if 8 * (body.length + 2) ≤ bits then none else some r) ∧
        (t.port h).sdo.bytes =
          (st :: body ++ [crc8 body] ++ List.replicate (bits / 8) 0x00#8).take (bits / 8)) ∧
      (st.getLsbD 5 = false →
        (t.port h).held = (s.port h).held ∧
        (t.port h).sdo.bytes = (st :: List.replicate (bits / 8) 0x00#8).take (bits / 8))

/-- R162, Table 21: the framer reads a frame exactly where the bytes are kind, tag, length, payload and CRC of a
payload of at most 240 bytes, with no bit after them. -/
def Obligations.FramerReadsExactlyTheRequestFrames : Prop :=
  ∀ (bytes : List Byte) (extra : Nat) (f : Frame),
    parseFrame bytes extra = some f ↔
      extra = 0 ∧ f.payload.length ≤ 240 ∧
      bytes = f.kind :: f.tag :: nat8 f.payload.length :: f.payload ++
        [crc8 (f.kind :: f.tag :: nat8 f.payload.length :: f.payload)]

/-- R162, R163: at the end of a request transaction a frame that is not well-formed sets FRAME_ERROR, and a
well-formed one that finds a request in progress, a held response or a DETACHING port sets DROPPED; neither does
anything else but end the transaction and clear the latches its status byte showed. -/
def Obligations.BadFrameAndDroppedFrameSetTheirLatch : Prop :=
  ∀ (s : State) (h : HostId) (bytes : List Byte) (extra : Nat) (st : Byte),
    (Instr.requestFrame h bytes extra).wellFormed = true →
    (s.port h).selLow = true → (s.port h).framer = .receiving st →
    (parseFrame bytes extra = none ∨
      ((s.port h).inProgress.isSome = true ∨ (s.port h).held.isSome = true ∨ (s.port h).state = .detaching)) →
    ∃ t, exec (.requestFrame h bytes extra) s = .next t ∧
      portView (t.port h) =
        { portView (s.port h) with
          framer := .idle, selLow := false, sdoLine := none, sdo := (t.port h).sdo,
          dropped := (parseFrame bytes extra).isSome || ((s.port h).dropped && !st.getLsbD 2),
          frameError := (parseFrame bytes extra).isNone || ((s.port h).frameError && !st.getLsbD 1) } ∧
      OthersKept s t h ∧ BlocksKept s t

/-- R159, R161 to R164, R178, R181: an idle port accepts a well-formed frame at the end of its transaction, which leaves
SELn high and SDOn at high impedance, has sent the status byte and then zeros, and clears the latches the status byte
showed. The port answers at once an unknown kind with UNKNOWN_KIND; from DETACHED every known kind but ATTACH and the
three queries with NOT_ATTACHED; ATTACH from ATTACHED with STATE; ATTACH from DETACHED and DETACH from ATTACHED with a
payload with BAD_ARGUMENT (log 7). Every other request is in progress. -/
def Obligations.AcceptedFrameIsJudgedByItsPort : Prop :=
  ∀ (s : State) (h : HostId) (bytes : List Byte) (extra : Nat) (st : Byte) (f : Frame),
    (Instr.requestFrame h bytes extra).wellFormed = true →
    (s.port h).selLow = true → (s.port h).framer = .receiving st → parseFrame bytes extra = some f →
    (s.port h).inProgress = none → (s.port h).held = none → (s.port h).state ≠ .detaching →
    ∃ t, exec (.requestFrame h bytes extra) s = .next t ∧ OthersKept s t h ∧ BlocksKept s t ∧
      portView (t.port h) =
        { portView (s.port h) with
          framer := .idle, selLow := false, sdoLine := none,
          sdo := ⟨st :: List.replicate (bytes.length - 1) 0x00#8, []⟩,
          dropped := (s.port h).dropped && !st.getLsbD 2,
          frameError := (s.port h).frameError && !st.getLsbD 1,
          inProgress := (t.port h).inProgress, held := (t.port h).held } ∧
      (Kind.ofByte f.kind = none →
        (t.port h).inProgress = none ∧ (t.port h).held = some ⟨f.kind, f.tag, .unknownKind, []⟩) ∧
      (∀ k, Kind.ofByte f.kind = some k →
        k.code = f.kind ∧
        if (s.port h).state = .detached ∧ k ∉ [.attach, .querySlot, .queryHost, .queryEngine] then
          (t.port h).inProgress = none ∧ (t.port h).held = some ⟨f.kind, f.tag, .notAttached, []⟩
        else if (s.port h).state = .attached ∧ k = .attach then
          (t.port h).inProgress = none ∧ (t.port h).held = some ⟨f.kind, f.tag, .state, []⟩
        else if (k = .attach ∨ k = .detach) ∧ f.payload ≠ [] then
          (t.port h).inProgress = none ∧ (t.port h).held = some ⟨f.kind, f.tag, .badArgument, []⟩
        else
          (t.port h).held = none ∧
          (t.port h).inProgress = some ⟨k, f.tag, f.payload, [], HostReport.empty⟩)

/-! ### The port's own requests (R168 to R173) -/

/-- R168, R169: ATTACH from DETACHED advances the session number, makes the port ATTACHED and sets the mask to
RESPONSE_READY and EVENTS_PENDING, its own response asserting ATN at once. DETACH from ATTACHED puts the port in
DETACHING with DETACH still in progress, clears the mask, so that ATN is deasserted, and leaves all four owners yet to
report; it is taken once no offer to the host is outstanding (R10, R111; log 11). -/
def Obligations.AttachAndDetachMoveTheSession : Prop :=
  ∀ (s : State) (h : HostId) (r : Request), r.payload = [] →
    (Asked s h .attach r → (s.port h).state = .detached →
      ∃ t, exec (.attach h) s = .next t ∧
        portView (t.port h) =
          { portView (s.port h) with
            session := (s.port h).session + 1#8, state := .attached, mask := ⟨true, true, false⟩,
            inProgress := none, held := some ⟨0x01#8, r.tag, .ok, [(s.port h).session + 1#8]⟩ } ∧
        (t.port h).atn = true ∧ OthersKept s t h ∧ BlocksKept s t) ∧
    (Asked s h .detach r → (s.port h).state = .attached →
      (∀ os ∈ s.ws.fromFre, ∀ l, os = .offers l → ∀ o ∈ l, o.host ≠ h) →
      ∃ t, exec (.detach h) s = .next t ∧
        portView (t.port h) =
          { portView (s.port h) with
            state := .detaching, mask := ⟨false, false, false⟩, toReport := ⟨true, true, true, true⟩ } ∧
        (t.port h).atn = false ∧ OthersKept s t h ∧ BlocksKept s t)

/-- R172, R173: SET_ATTENTION replaces the mask whole by bits 5, 4 and 3 of its one byte, and ATN follows the new mask
with the response held in the same action; any other payload is refused and leaves the mask. -/
def Obligations.SetAttentionReplacesTheMask : Prop :=
  ∀ (s : State) (h : HostId) (r : Request),
    Asked s h .setAttention r → (s.port h).state = .attached →
    ∃ t, exec (.setAttention h) s = .next t ∧ BlocksKept s t ∧
      (∀ b, r.payload = [b] →
        portView (t.port h) =
          { portView (s.port h) with
            mask := ⟨b.getLsbD 5, b.getLsbD 4, b.getLsbD 3⟩, inProgress := none,
            held := some ⟨0x03#8, r.tag, .ok, [b &&& 0x38#8]⟩ } ∧
        OthersKept s t h ∧
        (t.port h).atn =
          (b.getLsbD 5 || (b.getLsbD 4 && !(s.evq h).events.isEmpty) || (b.getLsbD 3 && (s.store h).latch))) ∧
      (r.payload.length ≠ 1 → Replied s t h r .badArgument [])

/-- R149, R152, R157, R159, R160, R163, R169, R170, R173: every step keeps the laws of the ports, the event queues and ATN:
never a request in progress and a held response together; DETACHING exactly with an owner yet to report, and then with
DETACH in progress; the mask empty outside ATTACHED; at most 16 events in a queue, and none in the queue of a port that
is not ATTACHED once the EVU has acted on its session end; SDOn driven exactly while a transaction is open, with SELn low;
ATN asserted exactly while a condition of its mask holds. -/
def Obligations.PortEventAndAtnLawsAreKept : Prop :=
  ∀ s t : State, PortLaw s → EventLaw s → AtnLaw s → SdoLaw s → step s = .next t →
    PortLaw t ∧ EventLaw t ∧ AtnLaw t ∧ SdoLaw t

/-! ### Claim requests (R20 to R43) -/

/-- R21, R22: the arbiter chooses a waiting port, the first in the circular order that begins after the pointer, and it
chooses one whenever one waits. The command of the chosen request's kind takes it: the pointer stands at its port, so
that each port still waiting has come nearer, the request is ended and its response is held. `after p g` is how many
ports stand between p and g in that order. -/
def Obligations.ArbiterServesInCircularOrder : Prop :=
  ∀ (s : State) (after : HostId → HostId → Nat),
    (∀ p g, after p g = ((hostCode g).toNat + 3 - (hostCode p).toNat) % 4) →
    (∀ h, granted s = some h → waitsAt s .rsc h = true ∧
      ∀ g, waitsAt s .rsc g = true → after s.rsc.pointer h ≤ after s.rsc.pointer g ∧
        (g ≠ h → after h g < after s.rsc.pointer g)) ∧
    ((∃ g, waitsAt s .rsc g = true) → ∃ h, granted s = some h) ∧
    ∀ h, Chosen s h → ∃ r c t res payload, (s.port h).inProgress = some r ∧
      (r.kind, c) ∈ [(Kind.claim, Instr.claim), (.release, .release), (.renew, .renew), (.querySlot, .querySlot)] ∧
      exec c s = .next t ∧ t.rsc.pointer = h ∧ Replied s t h r res payload

/-- R26, R32, R37, R78, R99, R120, R179, R180, Tables 25, 26, 27: decoding a payload undoes its layout, with every value
a field may take: CLAIM in both roles (the fill, depth and auto-renew bytes of a LISTEN claim may be any), RELEASE,
RENEW, WRITE_WORDS (the word bytes of a SILENCE may be any), and FORMAT, whose layout is also that of the record in a
QUERY_ENGINE response. -/
def Obligations.PayloadsAreReadFieldByField : Prop :=
  (∀ slots : List Nat, 1 ≤ slots.length → slots.length ≤ 8 → (∀ x ∈ slots, x < 256) →
    (∀ (lease : Half) (fill : FillPolicy) (depth : Nat) (auto : Bool), 1 ≤ depth → depth ≤ 16 →
      parseClaim ([0x00#8] ++ be16 lease ++ [fill.code, nat8 depth, yesNo auto, nat8 slots.length] ++
        slots.map nat8) =
        some ⟨.talk ⟨fill, depth, auto, none, 0#8, false⟩, lease, slots⟩) ∧
    (∀ (lease : Half) (b3 b4 b5 : Byte),
      parseClaim ([0x01#8] ++ be16 lease ++ [b3, b4, b5, nat8 slots.length] ++ slots.map nat8) =
        some ⟨.listen, lease, slots⟩) ∧
    (∀ (role : Role) (mode : ReleaseMode) (m : Byte),
      (m = 0x00#8 ∧ mode = .discard) ∨ (m = 0x01#8 ∧ mode = .drain) →
      parseRelease ([role.code, m, nat8 slots.length] ++ slots.map nat8) = some ⟨role, mode, slots⟩) ∧
    (∀ role : Role, parseRenew ([role.code, nat8 slots.length] ++ slots.map nat8) = some (role, slots))) ∧
  (∀ (slot : Byte) (es : List (TxEntry × Word)), 1 ≤ es.length → es.length ≤ 32 →
    parseWrite (slot :: nat8 es.length :: es.flatMap fun e =>
      match e.1 with
      | .word w => 0x01#8 :: be32 w
      | .silence => 0x02#8 :: be32 e.2) = some (slot.toNat, es.map Prod.fst)) ∧
  ∀ f : Format, 2 ≤ f.slots → f.slots ≤ 64 →
    (f.width = 8 ∨ f.width = 16 ∨ f.width = 24 ∨ f.width = 32) → f.gap ≤ 15 → 1 ≤ f.div → f.div ≤ 2048 →
    parseFormat f.encode = some f

/-- R26, R32, R37, R78, R120, R179, R180, Tables 25 to 27: nothing else is read. A payload that is read is, byte for
byte, the layout of the fields read, each in its range: the role, the count of slots and, in a CLAIM for TALK, the fill
policy, the depth and the auto-renew value; the release mode; the count and the kind byte of each entry; the format
record. Free are only the three bytes a LISTEN claim does not examine and the word bytes of a SILENCE. -/
def Obligations.OnlyPayloadsInRangeAreRead : Prop :=
  (∀ p a, parseClaim p = some a →
    1 ≤ a.slots.length ∧ a.slots.length ≤ 8 ∧ (∀ x ∈ a.slots, x < 256) ∧
    ∃ b3 b4 b5, p = [a.body.role.code] ++ be16 a.lease ++ [b3, b4, b5, nat8 a.slots.length] ++ a.slots.map nat8 ∧
      ∀ t, a.body = .talk t →
        b3 = t.fill.code ∧ b4 = nat8 t.depth ∧ 1 ≤ t.depth ∧ t.depth ≤ 16 ∧ b5 = yesNo t.autoRenew ∧
        t.lastWord = none ∧ t.underruns = 0#8 ∧ t.reported = false) ∧
  (∀ p a, parseRelease p = some a →
    1 ≤ a.slots.length ∧ a.slots.length ≤ 8 ∧ (∀ x ∈ a.slots, x < 256) ∧
    p = [a.role.code, if a.mode = .discard then 0x00#8 else 0x01#8, nat8 a.slots.length] ++ a.slots.map nat8) ∧
  (∀ p role slots, parseRenew p = some (role, slots) →
    1 ≤ slots.length ∧ slots.length ≤ 8 ∧ (∀ x ∈ slots, x < 256) ∧
    p = [role.code, nat8 slots.length] ++ slots.map nat8) ∧
  (∀ p slot es, parseWrite p = some (slot, es) →
    1 ≤ es.length ∧ es.length ≤ 32 ∧ slot < 256 ∧
    ∃ ws : List (TxEntry × Word), es = ws.map Prod.fst ∧
      p = nat8 slot :: nat8 es.length :: ws.flatMap fun e =>
        match e.1 with
        | .word w => 0x01#8 :: be32 w
        | .silence => 0x02#8 :: be32 e.2) ∧
  ∀ p f, parseFormat p = some f →
    p = f.encode ∧ 2 ≤ f.slots ∧ f.slots ≤ 64 ∧
    (f.width = 8 ∨ f.width = 16 ∨ f.width = 24 ∨ f.width = 32) ∧ f.gap ≤ 15 ∧ 1 ≤ f.div ∧ f.div ≤ 2048

/-- R30, R2: a CLAIM that passes its checks creates one PENDING_ADD record for each slot in list order at the tail of
the store, with consecutive stamps and, in the TALK role, an empty transmit queue of the depth named. The response
carries the first stamp and the session. -/
def Obligations.ClaimCreatesItsRecords : Prop :=
  ∀ (s : State) (h : HostId) (r : Request) (a : ClaimArgs),
    Chosen s h → Asked s h .claim r → parseClaim r.payload = some a →
    a.slots.Nodup → (∀ x ∈ a.slots, x < s.fre.fmt.slots) →
    recordCount s.rsc.records h + a.slots.length ≤ 32 →
    (∀ x ∈ a.slots, ∀ q ∈ s.rsc.records, q.slot = x → q.forward = true →
      ¬(a.body.role = .talk ∧ q.role = .talk) ∧ ¬(q.host = h ∧ q.role = a.body.role)) →
    ∃ t, exec .claim s = .next t ∧
      Replied s t h r .ok (be16 s.rsc.seq ++ [(s.port h).session]) ∧
      t.rsc =
        { s.rsc with
          pointer := h
          records := s.rsc.records ++ a.slots.mapIdx fun i x =>
            { id := s.rsc.nextId + i, host := h, slot := x, body := a.body, state := .pendingAdd,
              lease := a.lease, remaining := none, seq := s.rsc.seq + BitVec.ofNat 16 i,
              session := (s.port h).session }
          seq := s.rsc.seq + BitVec.ofNat 16 a.slots.length
          nextId := s.rsc.nextId + a.slots.length } ∧
      (∀ tp, a.body = .talk tp →
        t.ws = { s.ws with queues := s.ws.queues ++ a.slots.mapIdx fun i _ => ⟨s.rsc.nextId + i, h, tp.depth, []⟩ }) ∧
      (a.body = .listen → t.ws = s.ws) ∧
      t.fre = s.fre ∧ t.evu = s.evu ∧ t.pending = s.pending

/-- R25 to R29: the first check of CLAIM that fails anywhere in the list gives the result, with the failing index its
rule gives: arguments that cannot be read (index none, 0xFF), then a repeated slot, then a slot at or above F, then the
host's 32 records, then the forward view. -/
def Obligations.ClaimIsRefusedByItsFirstFailingCheck : Prop :=
  ∀ (s : State) (h : HostId) (r : Request), Chosen s h → Asked s h .claim r →
    (parseClaim r.payload = none →
      ∃ t, exec .claim s = .next t ∧ Replied s t h r .badArgument [0xFF#8]) ∧
    ∀ a, parseClaim r.payload = some a →
    (∀ i, i < a.slots.length → a.slots[i]! ∈ a.slots.take i → (a.slots.take i).Nodup →
      ∃ t, exec .claim s = .next t ∧ Replied s t h r .badArgument [nat8 i]) ∧
    (a.slots.Nodup →
      (∀ i, i < a.slots.length → s.fre.fmt.slots ≤ a.slots[i]! → (∀ x ∈ a.slots.take i, x < s.fre.fmt.slots) →
        ∃ t, exec .claim s = .next t ∧ Replied s t h r .badSlot [nat8 i]) ∧
      ((∀ x ∈ a.slots, x < s.fre.fmt.slots) →
        (32 < recordCount s.rsc.records h + a.slots.length →
          ∃ t, exec .claim s = .next t ∧
            Replied s t h r .claimLimit [nat8 (32 - recordCount s.rsc.records h)]) ∧
        (recordCount s.rsc.records h + a.slots.length ≤ 32 →
          ∀ i, i < a.slots.length →
            (∃ q ∈ s.rsc.records, q.slot = a.slots[i]! ∧ q.forward = true ∧
              ((a.body.role = .talk ∧ q.role = .talk) ∨ (q.host = h ∧ q.role = a.body.role))) →
            (∀ x ∈ a.slots.take i, ∀ q ∈ s.rsc.records, q.slot = x → q.forward = true →
              ¬(a.body.role = .talk ∧ q.role = .talk) ∧ ¬(q.host = h ∧ q.role = a.body.role)) →
            ∃ t, exec .claim s = .next t ∧ Replied s t h r .conflict [nat8 i])))

/-- R22, R25: a CLAIM, RELEASE or RENEW answered with anything but OK leaves the claim store, the sequence number, the
queues and every event as they were; of the RSC only the pointer moves. -/
def Obligations.RefusedClaimRequestChangesNothing : Prop :=
  ∀ (s t : State) (h : HostId) (c : Instr) (r : Response),
    c = .claim ∨ c = .release ∨ c = .renew → Chosen s h → (s.port h).held = none →
    exec c s = .next t → (t.port h).held = some r → r.result ≠ .ok →
    t.rsc = { s.rsc with pointer := h } ∧ t.ws = s.ws ∧ t.fre = s.fre ∧ t.evu = s.evu ∧
    t.pending = s.pending ∧ OthersKept s t h

/-- R32, R37: the records of RELEASE and RENEW are checked slot by slot. At the first slot where the caller holds no
record of the key in PENDING_ADD or ACTIVE the result is RELEASING where it holds one in PENDING_RELEASE and NO_CLAIM
where it holds none, with that slot's index; arguments that cannot be read (index none, 0xFF) and then a repeated slot are refused
before. -/
def Obligations.KeyChecksOfReleaseAndRenew : Prop :=
  ∀ (s : State) (h : HostId) (r : Request), Chosen s h →
    (Asked s h .release r → parseRelease r.payload = none →
      ∃ t, exec .release s = .next t ∧ Replied s t h r .badArgument [0xFF#8]) ∧
    (Asked s h .renew r → parseRenew r.payload = none →
      ∃ t, exec .renew s = .next t ∧ Replied s t h r .badArgument [0xFF#8]) ∧
    ∀ (role : Role) (slots : List Nat) (c : Instr) (i : Nat),
    (c = .release ∧ Asked s h .release r ∧ (∃ mode, parseRelease r.payload = some ⟨role, mode, slots⟩) ∨
      c = .renew ∧ Asked s h .renew r ∧ parseRenew r.payload = some (role, slots)) →
    i < slots.length →
    (slots[i]! ∈ slots.take i → (slots.take i).Nodup →
      ∃ t, exec c s = .next t ∧ Replied s t h r .badArgument [nat8 i]) ∧
    (slots.Nodup →
      (∀ x ∈ slots.take i, ∃ q ∈ s.rsc.records, q.host = h ∧ q.slot = x ∧ q.role = role ∧ q.forward = true) →
      (∀ q ∈ s.rsc.records, q.host = h → q.slot = slots[i]! → q.role = role → q.forward = false) →
      ((∃ q ∈ s.rsc.records, q.host = h ∧ q.slot = slots[i]! ∧ q.role = role) →
        ∃ t, exec c s = .next t ∧ Replied s t h r .releasing [nat8 i]) ∧
      ((∀ q ∈ s.rsc.records, ¬(q.host = h ∧ q.slot = slots[i]! ∧ q.role = role)) →
        ∃ t, exec c s = .next t ∧ Replied s t h r .noClaim [nat8 i]))

/-- R33, R34, R35: an accepted RELEASE withdraws each PENDING_ADD record it names and turns each ACTIVE one to
PENDING_RELEASE in the mode named, every other record keeping its place and fields. It asks the WS, in list order, for
the ending of a withdrawn talker's queue and, under DISCARD, the flush of a released talker's. The response lists
WITHDRAWN (0) or RELEASE_PENDING (1) slot by slot. `named x` is the caller's record on slot x. -/
def Obligations.ReleaseWithdrawsOrBeginsRelease : Prop :=
  ∀ (s : State) (h : HostId) (r : Request) (a : ReleaseArgs) (named : Nat → ClaimRec),
    StoreLaw s → Chosen s h → Asked s h .release r → parseRelease r.payload = some a → a.slots.Nodup →
    (∀ x ∈ a.slots, named x ∈ s.rsc.records ∧ (named x).host = h ∧ (named x).slot = x ∧
      (named x).role = a.role ∧ (named x).forward = true) →
    ∃ t, exec .release s = .next t ∧
      Replied s t h r .ok (nat8 a.slots.length ::
        a.slots.map fun x => if (named x).state = .pendingAdd then 0x00#8 else 0x01#8) ∧
      t.rsc =
        { s.rsc with
          pointer := h
          records :=
            (s.rsc.records.filter fun q => !decide (q ∈ a.slots.map named ∧ q.state = .pendingAdd)).map fun q =>
              if q ∈ a.slots.map named then { q with state := .pendingRelease a.mode } else q } ∧
      t.ws =
        { s.ws with
          asks := s.ws.asks ++ a.slots.flatMap fun x =>
            if a.role = .listen then []
            else if (named x).state = .pendingAdd then [.ending (named x).id]
            else if a.mode = .discard then [.flush (named x).id] else [] } ∧
      t.fre = s.fre ∧ t.evu = s.evu ∧ t.pending = s.pending

/-- R38: an accepted RENEW sets lease remaining to the lease on each ACTIVE leased record it names and changes nothing
else; the response gives RENEWED (0) with the lease, or UNCHANGED (1) with 0, slot by slot. -/
def Obligations.RenewRestartsTheLease : Prop :=
  ∀ (s : State) (h : HostId) (r : Request) (role : Role) (slots : List Nat) (named : Nat → ClaimRec),
    StoreLaw s → Chosen s h → Asked s h .renew r → parseRenew r.payload = some (role, slots) → slots.Nodup →
    (∀ x ∈ slots, named x ∈ s.rsc.records ∧ (named x).host = h ∧ (named x).slot = x ∧
      (named x).role = role ∧ (named x).forward = true) →
    ∃ t, exec .renew s = .next t ∧
      Replied s t h r .ok (nat8 slots.length :: slots.flatMap fun x =>
        if (named x).state = .active ∧ (named x).lease ≠ 0#16 then 0x00#8 :: be16 (named x).lease
        else [0x01#8, 0x00#8, 0x00#8]) ∧
      t.rsc =
        { s.rsc with
          pointer := h
          records := s.rsc.records.map fun q =>
            if q ∈ slots.map named ∧ q.state = .active ∧ q.lease ≠ 0#16
            then { q with remaining := some q.lease } else q } ∧
      t.ws = s.ws ∧ t.fre = s.fre ∧ t.evu = s.evu ∧ t.pending = s.pending

/-- R42, R43, Table 29: QUERY_SLOT changes nothing but the pointer. For a slot of 0 to 63 it answers OK with the slot,
the presence of an in-force and of an arriving talker, 18 bytes for each of them, in-force first, and the count of the
slot's LISTEN records with 10 bytes for each in the order of the store, every byte from the record's fields and, of a
talker, the number of entries in its queue; for a slot above 63 BAD_SLOT; for a payload that is not one byte
BAD_ARGUMENT. -/
def Obligations.QuerySlotReportsTheStore : Prop :=
  ∀ (s : State) (h : HostId) (r : Request), Chosen s h → Asked s h .querySlot r →
    ∃ t res payload, exec .querySlot s = .next t ∧ Replied s t h r res payload ∧
      t.rsc = { s.rsc with pointer := h } ∧ t.ws = s.ws ∧ t.fre = s.fre ∧ t.evu = s.evu ∧
      t.pending = s.pending ∧
      (r.payload.length ≠ 1 → res = .badArgument ∧ payload = []) ∧
      (∀ b, r.payload = [b] → 63 < b.toNat → res = .badSlot ∧ payload = []) ∧
      ∀ b inForceTalker arriving listeners, r.payload = [b] → b.toNat ≤ 63 →
        inForceTalker =
          s.rsc.records.find? (fun q => decide (q.role = .talk ∧ q.slot = b.toNat ∧ q.state ≠ .pendingAdd)) →
        arriving =
          s.rsc.records.find? (fun q => decide (q.role = .talk ∧ q.slot = b.toNat ∧ q.state = .pendingAdd)) →
        listeners = s.rsc.records.filter (fun q => decide (q.role = .listen ∧ q.slot = b.toNat)) →
        res = .ok ∧
        payload =
          [b, (if inForceTalker.isSome then 0x01#8 else 0x00#8) ||| (if arriving.isSome then 0x02#8 else 0x00#8)] ++
          (inForceTalker.toList ++ arriving.toList).flatMap (fun q =>
            match q.body with
            | .talk p =>
              [hostCode q.host, q.state.code,
                (if q.remaining.isSome then 0x01#8 else 0x00#8) ||| (if p.lastWord.isSome then 0x02#8 else 0x00#8) |||
                (if p.reported then 0x04#8 else 0x00#8) ||| (if p.autoRenew then 0x08#8 else 0x00#8)] ++
              be16 q.lease ++ be16 (q.remaining.getD 0#16) ++ be16 q.seq ++
              [q.session, p.fill.code, nat8 p.depth, nat8 (entriesOf s.ws.queues q.id q.host).length] ++
              be32 (p.lastWord.getD 0#32) ++ [p.underruns]
            | .listen => []) ++
          nat8 listeners.length :: listeners.flatMap fun q =>
            [hostCode q.host, q.state.code, if q.remaining.isSome then 0x01#8 else 0x00#8] ++
            be16 q.lease ++ be16 (q.remaining.getD 0#16) ++ be16 q.seq ++ [q.session]

/-- R11: the RSC's session end withdraws the host's PENDING_ADD records and turns its others to
PENDING_RELEASE(DISCARD), asks the WS for the ending of a withdrawn talker's queue and the flush of one turned to
DISCARD, queues no event, leaves the pointer, and reports. -/
def Obligations.RscSessionEndReleasesTheHostsRecords : Prop :=
  ∀ (s : State) (h : HostId), (s.port h).toReport.rsc = true → rscFree s = true →
    ∃ t, exec (.rscSessionEnd h) s = .next t ∧
      Reported s t h { (s.port h).toReport with rsc := false } ∧
      t.rsc =
        { s.rsc with
          records := (s.rsc.records.filter fun q => !decide (q.host = h ∧ q.state = .pendingAdd)).map fun q =>
            if q.host = h then { q with state := .pendingRelease .discard } else q } ∧
      t.ws =
        { s.ws with
          asks := s.ws.asks ++ s.rsc.records.flatMap fun q =>
            if q.host ≠ h ∨ q.role = .listen ∨ q.state = .pendingRelease .discard then []
            else if q.state = .pendingAdd then [.ending q.id] else [.flush q.id] } ∧
      t.fre = s.fre ∧ t.evu = s.evu ∧ t.pending = s.pending

/-- R13, R14, R4, R3: every step keeps the laws of the claim store. -/
def Obligations.StoreLawIsKept : Prop := ∀ s t : State, StoreLaw s → step s = .next t → StoreLaw t

/-! ### The boundary procedure (R44 to R56) -/

/-- R16, R44, R46, R47, R49, R50, R52, R53, R55, R56: the RSC takes the oldest boundary notice. The records whose
release is complete and those in force whose lease has run out are deleted; every other one keeps its place, its lease
counted down, adopted, or held back while another TALK record stands on its slot. The WS is asked for the ending of the
queue of every TALK record deleted, after a flush of it where the lease ran out, and for nothing else. The map is
rebuilt for the slots 0 to 63: a slot's talker is its TALK record in ACTIVE or PENDING_RELEASE of the store left, its
listeners its LISTEN records in ACTIVE. Nothing else of the RSC, and nothing of the ports or the FRE, changes. -/
def Obligations.BoundaryProcedureRecordByRecord : Prop :=
  ∀ (s : State) (k : Word) (ks : List Word),
    StoreLaw s → s.rsc.awaiting = none → s.rsc.proc = none → s.rsc.notices = k :: ks →
    ∃ t, exec .boundaryProcedure s = .next t ∧
      t.rsc =
        { s.rsc with
          notices := ks, map := t.rsc.map
          records := (s.rsc.records.filter (survives s.ws.queues)).map
            (afterBoundary s.ws.queues s.rsc.records) } ∧
      t.ws =
        { s.ws with
          asks := s.ws.asks ++
            (s.rsc.records.filter fun r => removedAt s.ws.queues r && r.isTalk).map (fun r => .ending r.id) ++
            (s.rsc.records.filter fun r => !removedAt s.ws.queues r && ranOut r && r.isTalk).flatMap
              fun r => [.flush r.id, .ending r.id] } ∧
      PortsKept s t ∧ t.fre = s.fre ∧ t.pending = s.pending ∧
      t.rsc.map.length = 64 ∧
      ∀ slot, slot < 64 → ∃ e, t.rsc.map[slot]? = some e ∧
        (∀ id, e.talker = some id ↔
          ∃ r ∈ t.rsc.records, r.id = id ∧ r.role = .talk ∧ r.slot = slot ∧ r.state ≠ .pendingAdd) ∧
        (∀ id, id ∈ e.listeners ↔
          ∃ r ∈ t.rsc.records, r.id = id ∧ r.role = .listen ∧ r.slot = slot ∧ r.state = .active)

/-- R45, R48, R50, R54: the events of the procedure, in step order, within a step in the order of the store, the
owner's before the TALKER_CHANGED events to the slot's listener hosts in the order H0 to H3; listener hosts are those
with a LISTEN record on the slot in PENDING_ADD or ACTIVE when the notice is taken, the owner excepted. That an owner
is excepted also where the talker deleted is of an old session is R45 and R151 followed where R157 says otherwise (log
28). -/
def Obligations.BoundaryProcedureQueuesItsEvents : Prop :=
  ∀ (s t : State) (k : Word) (ks : List Word)
    (toOthers : ClaimRec → Option HostId → List (HostId × Event)),
    StoreLaw s → s.rsc.awaiting = none → s.rsc.proc = none → s.rsc.notices = k :: ks →
    (∀ r talker, toOthers r talker =
      if r.role = .listen then []
      else
        ([.h0, .h1, .h2, .h3].filter fun g => s.rsc.records.any fun q =>
          decide (q.host = g ∧ q.slot = r.slot ∧ q.role = .listen ∧
            g ≠ r.host) && q.forward).map
          fun g => (g, ⟨.talkerChanged r.slot talker, k.setWidth 16⟩)) →
    exec .boundaryProcedure s = .next t →
    t.evu =
      { s.evu with
        fromRsc := s.evu.fromRsc ++
          (s.rsc.records.filter (removedAt s.ws.queues)).flatMap (fun r =>
            (r.host, ⟨.ended r.slot r.role .released, k.setWidth 16⟩) :: toOthers r none) ++
          (s.rsc.records.filter fun r => !removedAt s.ws.queues r && ranOut r).flatMap (fun r =>
            (r.host, ⟨.ended r.slot r.role .expired, k.setWidth 16⟩) :: toOthers r none) ++
          (s.rsc.records.filter fun r =>
            decide (r.state = .pendingAdd) && !standsBehind s.ws.queues s.rsc.records r).flatMap (fun r =>
            (r.host, ⟨.adopted r.slot r.role, k.setWidth 16⟩) :: toOthers r (some r.host)) }

/-- R45, R48, R50, R51: where the lease step comes to a record whose lease has run out, LEASE_EXPIRY deletes it, asks
the WS to flush and end a talker's queue, and hands over ENDED (EXPIRED) and then, of a talker, TALKER_CHANGED (none) of
its slot to each listener host H0 to H3, the owner excepted, also where the talker is of an old session (R157 says
otherwise; log 28), before anything the procedure still has to do. The procedure is one under way, or one that LEASE_EXPIRY begins from the oldest notice with the whole removal step;
that the table's step cuts the procedure here is the model's choice (log 4).
`told ls k r` is what the listener hosts `ls` are sent for the record. -/
def Obligations.LeaseExpiryDeletesTheRecord : Prop :=
  ∀ (s : State) (before after : List ClaimRec) (r : ClaimRec) (counted : ClaimRec → ClaimRec)
    (told : List ListenerHost → Word → ClaimRec → List (HostId × Event)),
    s.rsc.awaiting = none → (∀ q ∈ before, ranOut q = false) → ranOut r = true →
    (∀ q, counted q =
      if q.state = .pendingAdd ∨ q.lease = 0#16 then q
      else { q with remaining := q.remaining.map fun n => n - 1#16 }) →
    (∀ ls k q, told ls k q =
      if q.role = .listen then []
      else
        ([.h0, .h1, .h2, .h3].filter fun g => ls.any fun l =>
          decide (l.host = g ∧ l.slot = q.slot ∧ g ≠ q.host)).map
          fun g => (g, ⟨.talkerChanged q.slot none, k.setWidth 16⟩)) →
    (∀ (p : Procedure) (passed : List ClaimRec),
      s.rsc.proc = some p → p.visited = passed.length → s.rsc.records = passed ++ before ++ r :: after →
      ∃ t, exec .leaseExpiry s = .next t ∧
        t.rsc =
          { s.rsc with
            records := passed ++ before.map counted ++ after
            proc := some { p with visited := passed.length + before.length } } ∧
        t.evu =
          { s.evu with
            fromRsc := s.evu.fromRsc ++
              (r.host, ⟨.ended r.slot r.role .expired, p.frame.setWidth 16⟩) :: told p.listeners p.frame r } ∧
        t.ws = { s.ws with asks := s.ws.asks ++ if r.role = .talk then [.flush r.id, .ending r.id] else [] } ∧
        PortsKept s t ∧ t.fre = s.fre ∧ t.pending = s.pending) ∧
    ∀ (k : Word) (ks : List Word) (ls : List ListenerHost),
      s.rsc.proc = none → s.rsc.notices = k :: ks →
      s.rsc.records.filter (fun q => !removedAt s.ws.queues q) = before ++ r :: after →
      ls = (s.rsc.records.filter fun q => decide (q.role = .listen) && q.forward).map
        (fun q => ⟨q.slot, q.host⟩) →
      ∃ t, exec .leaseExpiry s = .next t ∧
        t.rsc =
          { s.rsc with
            notices := ks, records := before.map counted ++ after, proc := some ⟨k, ls, before.length⟩ } ∧
        t.evu =
          { s.evu with
            fromRsc := s.evu.fromRsc ++
              (s.rsc.records.filter (removedAt s.ws.queues)).flatMap (fun q =>
                (q.host, ⟨.ended q.slot q.role .released, k.setWidth 16⟩) :: told ls k q) ++
              (r.host, ⟨.ended r.slot r.role .expired, k.setWidth 16⟩) :: told ls k r } ∧
        t.ws =
          { s.ws with
            asks := s.ws.asks ++
              (s.rsc.records.filter fun q => removedAt s.ws.queues q && q.isTalk).map (fun q => .ending q.id) ++
              if r.role = .talk then [.flush r.id, .ending r.id] else [] } ∧
        PortsKept s t ∧ t.fre = s.fre ∧ t.pending = s.pending

/-- The boundary procedure is one operation however it is cut: LEASE_EXPIRY and then BOUNDARY_PROCEDURE come to the
same outcome as BOUNDARY_PROCEDURE alone, from every state (R44, R50; the cut is the model's choice, log 4). -/
def Obligations.LeaseExpiryIsPartOfTheProcedure : Prop :=
  ∀ s t : State, exec .leaseExpiry s = .next t → exec .boundaryProcedure t = exec .boundaryProcedure s

/-- R4, R49, R50: through any boundaries, whatever the queues hold, an ACTIVE record with lease remaining n that no
request touches stands at n - j after j of them, is still ACTIVE after n, and is gone after n + 1. `store j` is the
store after j boundaries. -/
def Obligations.LeaseRunsItsFramesAndEnds : Prop :=
  ∀ (frame : Nat → Word) (queues : Nat → List TxQueue) (store : Nat → List ClaimRec) (r : ClaimRec) (n : Half),
    (∀ j, store (j + 1) = (runProcedure (frame j) (queues j) (store j)).records) →
    ((store 0).map ClaimRec.id).Nodup → r ∈ store 0 → r.state = .active → r.lease ≠ 0#16 →
    r.remaining = some n →
    (∀ j, j ≤ n.toNat → ∃ q ∈ store j,
      q = { r with remaining := some (n - BitVec.ofNat 16 j) }) ∧
    ∀ q ∈ store (n.toNat + 1), q.id ≠ r.id

/-! ### The frame format and the run votes (R65, R78 to R86, R91, R93, R98, R99) -/

/-- R78, R79: the FRE refuses FORMAT with STATE outside STOPPED, with BAD_ARGUMENT where the payload is no format
record, and with IN_USE and the highest slot named by any record where a record names a slot at or above the new F;
otherwise it replaces the format record whole. Nothing else changes. -/
def Obligations.FormatIsCheckedAndReplacesTheRecord : Prop :=
  ∀ (s : State) (h : HostId) (r : Request),
    Asked s h .format r → mayTake s .fre h = true → rscFree s = true →
    ∃ t res payload, exec (.format h) s = .next t ∧ Replied s t h r res payload ∧
      t.rsc = s.rsc ∧ t.ws = s.ws ∧ t.evu = s.evu ∧ t.pending = s.pending ∧
      (s.fre.engine ≠ .stopped → res = .state ∧ payload = [] ∧ t.fre = s.fre) ∧
      (s.fre.engine = .stopped → parseFormat r.payload = none →
        res = .badArgument ∧ payload = [] ∧ t.fre = s.fre) ∧
      (s.fre.engine = .stopped → ∀ f, parseFormat r.payload = some f →
        ((∀ q ∈ s.rsc.records, q.slot < f.slots) →
          res = .ok ∧ payload = [] ∧ t.fre = { s.fre with fmt := f }) ∧
        ((∃ q ∈ s.rsc.records, f.slots ≤ q.slot) →
          res = .inUse ∧ t.fre = s.fre ∧
          ∃ q ∈ s.rsc.records, payload = [nat8 q.slot] ∧ ∀ q' ∈ s.rsc.records, q'.slot ≤ q.slot))

/-- R82, R84, R85, R93, R98: RUN adds the caller's vote. Where that makes the set non-empty, a STOPPED engine takes the
format in use and starts, in LEADER mode in the lead-in with HBCLK and HFSYNC driven low and an ENGINE event to every
ATTACHED host, in FOLLOWER mode in ACQUIRING with no event; a STOPPING engine goes back to RUNNING with the event. With
votes already there nothing else changes. The response carries the engine state and the vote set after the request. -/
def Obligations.RunAddsTheVote : Prop :=
  ∀ (s : State) (h : HostId) (r : Request), Asked s h .run r → mayTake s .fre h = true →
    ∃ t, exec (.run h) s = .next t ∧
      Replied s t h r .ok [t.fre.engine.code, hostSetByte t.fre.votes] ∧
      t.fre.votes = s.fre.votes.set h true ∧ t.rsc = s.rsc ∧ t.ws = s.ws ∧ t.pending = s.pending ∧
      (noVotes s.fre.votes = false → t.fre = { s.fre with votes := t.fre.votes } ∧ t.evu = s.evu) ∧
      (noVotes s.fre.votes = true → s.fre.engine = .stopped → s.fre.fmt.mode = .leader →
        t.fre = { s.fre with
          votes := t.fre.votes, engine := .running, leadIn := true, inUse := s.fre.fmt, clkHigh := false,
          hbclk := some false, hfsync := some false } ∧
        t.evu = { s.evu with fromFre := s.evu.fromFre ++ engineCopies s .running s.fre.frame }) ∧
      (noVotes s.fre.votes = true → s.fre.engine = .stopped → s.fre.fmt.mode = .follower →
        t.fre = { s.fre with
          votes := t.fre.votes, engine := .acquiring, leadIn := false, inUse := s.fre.fmt, acq := none,
          prevSync := none } ∧
        t.evu = s.evu) ∧
      (noVotes s.fre.votes = true → s.fre.engine = .stopping →
        t.fre = { s.fre with votes := t.fre.votes, engine := .running } ∧
        t.evu = { s.evu with fromFre := s.evu.fromFre ++ engineCopies s .running s.fre.frame })

/-- R83, R84, R86, R91, R98: what HALT and the FRE's session end do: the host's vote is removed. Where that empties the
set, ACQUIRING and the lead-in end in STOPPED at once with every line released, no boundary, and an ENGINE event to
every ATTACHED host; a RUNNING engine with a frame in progress goes to STOPPING with no event. A removal that leaves
the set non-empty, or finds it empty, changes nothing else. That in STOPPED the bit position, the level of the bit clock
and the previous sync level keep their values and the slot words are absent is the model's choice (log 17). `h` has answered HALT, or reported to its port. -/
def Obligations.HaltAndSessionEndRemoveTheVote : Prop :=
  ∀ (s : State) (h : HostId) (c : Instr) (r : Request),
    (c = .halt h ∧ Asked s h .halt r ∧ mayTake s .fre h = true) ∨
      (c = .freSessionEnd h ∧ (s.port h).toReport.fre = true) →
    ∃ t, exec c s = .next t ∧
      (c = .halt h → Replied s t h r .ok [t.fre.engine.code, hostSetByte t.fre.votes]) ∧
      (c = .freSessionEnd h → Reported s t h { (s.port h).toReport with fre := false }) ∧
      t.fre.votes = s.fre.votes.set h false ∧ t.rsc = s.rsc ∧ t.ws = s.ws ∧ t.pending = s.pending ∧
      (noVotes t.fre.votes = false ∨ noVotes s.fre.votes = true →
        t.fre = { s.fre with votes := t.fre.votes } ∧ t.evu = s.evu) ∧
      (noVotes t.fre.votes = true → noVotes s.fre.votes = false →
        (s.fre.engine = .acquiring ∨ s.fre.engine = .running ∧ s.fre.leadIn = true →
          t.fre = { atRest s.fre with votes := t.fre.votes } ∧
          t.evu = { s.evu with fromFre := s.evu.fromFre ++ engineCopies s .stopped s.fre.frame }) ∧
        (s.fre.engine = .running → s.fre.leadIn = false →
          t.fre = { s.fre with votes := t.fre.votes, engine := .stopping } ∧ t.evu = s.evu))

/-- R99: QUERY_ENGINE is always answered OK with the engine state, the 32-bit frame counter, the slip count, the vote
set and the format record, and changes nothing. -/
def Obligations.QueryEngineReportsTheEngine : Prop :=
  ∀ (s : State) (h : HostId) (r : Request), Asked s h .queryEngine r → mayTake s .fre h = true →
    ∃ t, exec (.queryEngine h) s = .next t ∧ BlocksKept s t ∧
      Replied s t h r .ok
        (s.fre.engine.code :: be32 s.fre.frame ++ be16 s.fre.slip ++ [hostSetByte s.fre.votes] ++
          [nat8 s.fre.fmt.slots, nat8 s.fre.fmt.width, nat8 s.fre.fmt.gap, s.fre.fmt.sync.code,
           s.fre.fmt.mode.code] ++ be16 (BitVec.ofNat 16 s.fre.fmt.div) ++ be32 s.fre.fmt.idle)

/-- R65, R74, R75, R82, R83: every step keeps the laws of the engine: the vote set empty exactly while it is STOPPED or
STOPPING; the format in use equal to the format record outside STOPPED; HTXD driven exactly while HTXEN is asserted and
a word is being shifted out, and only in a frame. -/
def Obligations.EngineLawsAreKept : Prop :=
  ∀ s t : State, VoteLaw s → FormatLaw s → LineLaw s → step s = .next t → VoteLaw t ∧ FormatLaw t ∧ LineLaw t

/-! ### Boundaries, lock and its loss (R69, R70, R84 to R98, R183) -/

/-- R69, R70, R84, R87, R92, R95, R98, R136: at the end of the lead-in, and at the rising edge after bit N - 1 of a leader's
frame, the frame counter advances to k, the RSC, the WS and the Receive Path get their notices of k, and the bit position
is 0. Where the engine is RUNNING, HBCLK and HFSYNC go high and slot 0's start is due; where it is STOPPING, no frame sync
is emitted, every line is released, the engine is STOPPED, and every ATTACHED host gets an ENGINE event of frame k. Two
clauses are the model's: the transmit lines and the word shifted out keep their levels until slot 0's start, which is
taken at the same edge as a step of its own (log 21), and what is not used in STOPPED keeps its value (log 17). -/
def Obligations.LeaderBoundaryAdvancesTheFrame : Prop :=
  ∀ (s : State) (c : Instr),
    (c = .leadInEnd ∧ s.fre.engine = .running ∧ s.fre.leadIn = true) ∨
      (c = .frameBoundary ∧ (s.fre.engine = .running ∧ s.fre.leadIn = false ∨ s.fre.engine = .stopping) ∧
        risingNext s = true ∧ rscQuiet s = true ∧ s.fre.inUse.mode = .leader ∧
        s.fre.bitPos + 1 = s.fre.inUse.slots * s.fre.inUse.width + s.fre.inUse.gap) →
    ∃ t, exec c s = .next t ∧ PortsKept s t ∧
      t.rsc = { s.rsc with notices := s.rsc.notices ++ [s.fre.frame + 1#32] } ∧
      t.ws = { s.ws with fromFre := s.ws.fromFre ++ [.boundary] } ∧ t.pending = s.pending ∧
      (s.fre.engine = .running →
        t.fre =
          { s.fre with
            frame := s.fre.frame + 1#32, rpFrame := s.fre.frame + 1#32, bitPos := 0, leadIn := false,
            clkHigh := true, slot0Due := true, hbclk := some true, hfsync := some true } ∧
        t.evu = s.evu) ∧
      (s.fre.engine = .stopping →
        t.fre =
          { atRest s.fre with
            frame := s.fre.frame + 1#32, rpFrame := s.fre.frame + 1#32, bitPos := 0 } ∧
        t.evu = { s.evu with
          fromFre := s.evu.fromFre ++ engineCopies s .stopped (s.fre.frame + 1#32) })

/-- R75, R88: at the expected instant of a follower the RSC is sent a notice for the next frame that awaits
confirmation, and the counter stays. A STOPPING engine takes no slot start, so its transmit lines are undriven from this
edge. A RUNNING engine takes slot 0's start; that EXPECTED_INSTANT only begins it and AWAITING_CONFIRMATION_NOTICE
completes it is the model's (log 5), and so is that the transmit lines keep their levels in between (log 21). -/
def Obligations.ExpectedInstantAsksForConfirmation : Prop :=
  ∀ s : State, risingNext s = true → rscQuiet s = true → s.fre.inUse.mode = .follower →
    s.fre.bitPos + 1 = s.fre.inUse.slots * s.fre.inUse.width + s.fre.inUse.gap →
    ∃ t, exec .expectedInstant s = .next t ∧ PortsKept s t ∧
      t.rsc = { s.rsc with awaiting := some (.sent (s.fre.frame + 1#32)) } ∧
      t.ws = s.ws ∧ t.evu = s.evu ∧ t.pending = s.pending ∧
      (s.fre.engine = .running → t.fre = { s.fre with clkHigh := true, slot0Due := true }) ∧
      (s.fre.engine = .stopping →
        t.fre = { s.fre with clkHigh := true, txWord := none, htxd := none, htxen := false })

/-- R88, R123 to R126, R131, R10: the RSC takes the notice awaiting confirmation by working the whole procedure out; it
changes no record, no map, no event and asks the WS for nothing. Slot 0's start, where one was begun, is taken on the map
and the records of the procedure worked out, as any slot start: nothing loaded where the slot has no talker or a
silenced one, the head entry loaded and its cell returned at once, or the fill of an empty queue. The write to the
traffic fields waits for the confirmation. No other queue and no other host's part changes. That the start is completed
here is the model's (log 5). -/
def Obligations.AwaitingNoticeChangesNoRecord : Prop :=
  ∀ (s : State) (k : Word) (b : BoundaryResult), s.rsc.awaiting = some (.sent k) →
    b = runProcedure k s.ws.queues s.rsc.records →
    ∃ t, exec .awaitingConfirmationNotice s = .next t ∧ PortsKept s t ∧
      t.rsc = { s.rsc with awaiting := some (.worked k b) } ∧
      t.evu = s.evu ∧ t.pending = s.pending ∧ t.ws.asks = s.ws.asks ∧ t.ws.fromFre = s.ws.fromFre ∧
      (s.fre.slot0Due = false → t.fre = s.fre ∧ t.ws = s.ws) ∧
      (s.fre.slot0Due = true →
        t.fre =
          { s.fre with
            slot0Due := false, rxWord := none, txWord := t.fre.txWord, htxd := t.fre.htxd, htxen := t.fre.htxen,
            account := t.fre.account, provisional := t.fre.provisional } ∧
        ∀ e, b.map[0]? = some e →
          ((e.talker = none ∨ ∃ id r, e.talker = some id ∧ recordOf b.records id = some r ∧
              (r.state = .pendingRelease .discard ∨ (s.port r.host).state = .detaching)) →
            Undriven t ∧ t.fre.account = some .notSent ∧ t.fre.provisional = none ∧ t.ws = s.ws) ∧
          ∀ id r p, e.talker = some id → recordOf b.records id = some r → r.body = .talk p →
            r.state ≠ .pendingRelease .discard → (s.port r.host).state ≠ .detaching →
            (∀ id' g, ¬(id' = id ∧ g = r.host) → entriesOf t.ws.queues id' g = entriesOf s.ws.queues id' g) ∧
            (∀ g, g ≠ r.host → t.store g = s.store g) ∧
            (∀ x es, entriesOf s.ws.queues id r.host = x :: es →
              entriesOf t.ws.queues id r.host = es ∧
              t.store r.host = { s.store r.host with held := (s.store r.host).held - 1 } ∧
              t.ws.free = s.ws.free + 1 ∧
              (x = .silence → Undriven t ∧ t.fre.account = some .notSent ∧ t.fre.provisional = none) ∧
              ∀ w, x = .word w → Driven t w ∧ t.fre.account = some (.sentQueued w) ∧
                t.fre.provisional = some (.wordSent id w)) ∧
            (entriesOf s.ws.queues id r.host = [] →
              t.ws = s.ws ∧ t.fre.provisional = some (.underrun id) ∧
              (p.fill = .silent → Undriven t ∧ t.fre.account = some .notSent) ∧
              (p.fill = .pattern →
                Driven t s.fre.inUse.idle ∧ t.fre.account = some (.sentFill s.fre.inUse.idle)) ∧
              (p.fill = .repeatLast →
                Driven t (p.lastWord.getD s.fre.inUse.idle) ∧
                t.fre.account = some (.sentFill (p.lastWord.getD s.fre.inUse.idle)))))

/-- R88, R92, R126, R131: the expected sync confirms the boundary: the worked-out procedure is put into effect whole, the
counter and the Receive Path's number are k, and the WS gets its notice. A RUNNING engine opens frame k with bit position
0 and the first sample of slot 0, and the traffic write that waited is made on the store put into effect: the last word
sent, or the underrun counted up to 255 and reported, with UNDERRUN of frame k where none was reported. A STOPPING one
takes its closing boundary and is STOPPED, no traffic field written. Two clauses are the model's: the values that a
STOPPED engine keeps of what it does not use (log 17), and that the traffic write is made also where a HALT and a RUN were
both taken since the expected instant (log 29). -/
def Obligations.ExpectedSyncConfirmsTheBoundary : Prop :=
  ∀ (s : State) (rxd : Bool) (k : Word) (b : BoundaryResult),
    s.fre.inUse.mode = .follower → s.fre.prevSync = some false → s.fre.clkHigh = true →
    s.rsc.awaiting = some (.worked k b) → s.fre.engine = .running ∨ s.fre.engine = .stopping →
    ∃ t, exec (.frameSync rxd) s = .next t ∧ PortsKept s t ∧
      t.rsc = { s.rsc with awaiting := none, map := b.map, records := t.rsc.records } ∧
      t.evu =
        { s.evu with
          fromRsc := s.evu.fromRsc ++ b.events, fromTransmit := t.evu.fromTransmit, fromFre := t.evu.fromFre } ∧
      t.ws = { s.ws with asks := s.ws.asks ++ b.asks, fromFre := s.ws.fromFre ++ [.boundary] } ∧
      t.pending = s.pending ∧
      (s.fre.provisional = none ∨ s.fre.engine = .stopping →
        t.rsc.records = b.records ∧ t.evu.fromTransmit = s.evu.fromTransmit) ∧
      (s.fre.engine = .running →
        t.fre =
          { s.fre with
            frame := k, rpFrame := k, bitPos := 0, clkHigh := false, prevSync := some true, provisional := none,
            rxWord := some (if rxd then 1#32 else 0#32) } ∧
        t.evu.fromFre = s.evu.fromFre ∧
        (∀ id w, s.fre.provisional = some (.wordSent id w) →
          t.evu.fromTransmit = s.evu.fromTransmit ∧
          t.rsc.records = b.records.map fun r =>
            match r.body with
            | .talk p => if r.id = id then { r with body := .talk { p with lastWord := some w } } else r
            | .listen => r) ∧
        ∀ id, s.fre.provisional = some (.underrun id) →
          (t.rsc.records = b.records.map fun r =>
            match r.body with
            | .talk p =>
              if r.id = id then
                { r with body := .talk { p with
                  underruns := if p.underruns = 0xFF#8 then 0xFF#8 else p.underruns + 1#8, reported := true } }
              else r
            | .listen => r) ∧
          ∀ r p, recordOf b.records id = some r → r.body = .talk p →
            t.evu.fromTransmit = s.evu.fromTransmit ++
              if p.reported then [] else [(r.host, ⟨.underrun r.slot, k.setWidth 16⟩)]) ∧
      (s.fre.engine = .stopping →
        t.fre =
          { atRest s.fre with
            frame := k, rpFrame := k, bitPos := 0, clkHigh := false, prevSync := some true } ∧
        t.evu.fromFre = s.evu.fromFre ++ engineCopies s .stopped k)

/-- R88, R89, R90, R94, R96, R98: a sync missing where one is expected, and a sync recognised anywhere else, are a loss
of lock. The frame is abandoned with its lines released and its work discarded; no record, map, event of the RSC or
counter changes but the slip count, which holds at 65535; the WS gets a loss notice naming each host with a listener
of the map of the abandoned frame that is not excluded; that a host's LISTEN records outside the map are not asked is an
inference (log 32). That map is the active slot map; where the RSC has not yet taken the notice of the boundary before, as
may be in slot 0 after lock, it is the map its procedure comes to (log 31). A RUNNING engine goes to ACQUIRING, its count
0 after an early sync and absent after a missing one; a STOPPING one goes to STOPPED. Every ATTACHED host gets the ENGINE event. Two clauses are the model's: at
the last bit of a slot an early sync takes no slot end (log 15), and what is not used in STOPPED keeps its value (log
17). -/
def Obligations.LossOfLockAbandonsTheFrame : Prop :=
  ∀ (s : State) (c : Instr) (rxd sample : Bool) (acq : Option Nat),
    s.fre.inUse.mode = .follower → s.fre.engine = .running ∨ s.fre.engine = .stopping → s.fre.clkHigh = true →
    (c = .frameSync rxd ∧ s.fre.prevSync = some false ∧ sample = true ∧ s.rsc.awaiting = none ∧ acq = some 0) ∨
      (c = .missingSync sample ∧ (∃ k b, s.rsc.awaiting = some (.worked k b)) ∧
        ¬(s.fre.prevSync = some false ∧ sample = true) ∧ acq = none) →
    ∃ t hosts map records, exec c s = .next t ∧ PortsKept s t ∧
      t.rsc = { s.rsc with awaiting := none } ∧
      t.ws = { s.ws with fromFre := s.ws.fromFre ++ [.loss hosts] } ∧
      frameMap s = (map, records) ∧ (rscQuiet s = true → map = s.rsc.map ∧ records = s.rsc.records) ∧
      (∀ k b, s.rsc.proc = none → s.rsc.notices = [k] → b = runProcedure k s.ws.queues s.rsc.records →
        map = b.map ∧ records = b.records) ∧
      (∀ g, g ∈ hosts ↔ ∃ e ∈ map, ∃ id ∈ e.listeners, ∃ r, recordOf records id = some r ∧
        r.host = g ∧ r.state ≠ .pendingRelease .discard ∧ (s.port g).state ≠ .detaching) ∧
      (s.fre.engine = .running →
        t.fre =
          { lockLost s.fre acq with
            slip := if s.fre.slip = 0xFFFF#16 then 0xFFFF#16 else s.fre.slip + 1#16,
            clkHigh := false, prevSync := some sample } ∧
        t.evu = { s.evu with fromFre := s.evu.fromFre ++ engineCopies s .acquiring s.fre.frame }) ∧
      (s.fre.engine = .stopping →
        t.fre =
          { atRest s.fre with
            slip := if s.fre.slip = 0xFFFF#16 then 0xFFFF#16 else s.fre.slip + 1#16,
            clkHigh := false, prevSync := some sample } ∧
        t.evu = { s.evu with fromFre := s.evu.fromFre ++ engineCopies s .stopped s.fre.frame }) ∧
      t.pending = s.pending

/-- R72, R85, R86, R183: in ACQUIRING a present count goes up by one at each falling edge and holds at N + 1. A
recognition whose count does not come to N sets the count to 0 and changes nothing else. One whose count comes to N
completes lock: the engine is RUNNING with no slot 0 start to take, the counter advances to k, the RSC gets an ordinary
notice and the WS and the Receive Path theirs, the sample of HRXD is the first bit of slot 0, and every ATTACHED host
gets ENGINE (RUNNING, k). -/
def Obligations.AcquisitionCountsAndLocks : Prop :=
  ∀ (s : State) (n : Nat) (sample rxd : Bool),
    n = s.fre.inUse.slots * s.fre.inUse.width + s.fre.inUse.gap → s.fre.inUse.mode = .follower →
    s.fre.engine = .acquiring →
    (¬(s.fre.prevSync = some false ∧ sample = true) →
      ∃ t, exec (.bitClock .falling sample rxd) s = .next t ∧ PortsKept s t ∧
        t.rsc = s.rsc ∧ t.ws = s.ws ∧ t.evu = s.evu ∧ t.pending = s.pending ∧
        t.fre = { s.fre with clkHigh := false, prevSync := some sample, acq := t.fre.acq } ∧
        (s.fre.acq = none → t.fre.acq = none) ∧
        ∀ c, s.fre.acq = some c → t.fre.acq = some (if c < n then c + 1 else n + 1)) ∧
    (s.fre.prevSync = some false → (∀ c, s.fre.acq = some c → c + 1 ≠ n) →
      ∃ t, exec (.frameSync rxd) s = .next t ∧ PortsKept s t ∧
        t.rsc = s.rsc ∧ t.ws = s.ws ∧ t.evu = s.evu ∧ t.pending = s.pending ∧
        t.fre = { s.fre with clkHigh := false, prevSync := some true, acq := some 0 }) ∧
    (s.fre.prevSync = some false → (∃ c, s.fre.acq = some c ∧ c + 1 = n) →
      ∃ t, exec (.frameSync rxd) s = .next t ∧ PortsKept s t ∧
        t.fre =
          { s.fre with
            engine := .running, acq := none, frame := s.fre.frame + 1#32, rpFrame := s.fre.frame + 1#32,
            bitPos := 0, clkHigh := false, prevSync := some true, slot0Due := false, account := none,
            provisional := none, rxWord := some (if rxd then 1#32 else 0#32) } ∧
        t.rsc = { s.rsc with notices := s.rsc.notices ++ [s.fre.frame + 1#32] } ∧
        t.ws = { s.ws with fromFre := s.ws.fromFre ++ [.boundary] } ∧
        t.evu = { s.evu with fromFre := s.evu.fromFre ++ engineCopies s .running (s.fre.frame + 1#32) } ∧
        t.pending = s.pending)

/-! ### Slots (R66 to R68, R74 to R77, R123 to R126, R133 to R137) -/

/-- R123, R124, R125, R126, R10: a slot start leaves the slot undriven with nothing loaded or counted where the slot has
no talker or a silenced one; it loads the head entry, and drives the line for a WORD, which becomes the last word sent;
with an empty queue it sends the fill, counts the underrun up to 255, and hands over UNDERRUN where none was
reported. Past slot 0 the start is the rising edge that begins the slot: a leader drives HBCLK high and HFSYNC, past the
pulse of either style, low, and a follower drives neither (R69, R70). -/
def Obligations.SlotStartDecidesTheSlotsWord : Prop :=
  ∀ (s : State) (x : Nat), nextSlotStart s = some x → rscQuiet s = true →
    ∃ t, exec .slotStart s = .next t ∧ PortsKept s t ∧ t.pending = s.pending ∧
      t.fre =
        { s.fre with
          slot0Due := false, rxWord := none, txWord := t.fre.txWord, htxd := t.fre.htxd, htxen := t.fre.htxen,
          account := t.fre.account
          clkHigh := if s.fre.slot0Due then s.fre.clkHigh else true
          bitPos := if s.fre.slot0Due then s.fre.bitPos else s.fre.bitPos + 1
          hbclk := if s.fre.slot0Due then s.fre.hbclk
            else if s.fre.inUse.mode = .leader then some true else none
          hfsync := if s.fre.slot0Due then s.fre.hfsync
            else if s.fre.inUse.mode = .leader then some false else none } ∧
      t.ws.asks = s.ws.asks ∧ t.ws.fromFre = s.ws.fromFre ∧
      t.rsc = { s.rsc with records := t.rsc.records } ∧
      (∀ e, s.rsc.map[x]? = some e →
        ((e.talker = none ∨ ∃ id r, e.talker = some id ∧ recordOf s.rsc.records id = some r ∧
            (r.state = .pendingRelease .discard ∨ (s.port r.host).state = .detaching)) →
          Undriven t ∧ t.fre.account = some .notSent ∧ t.rsc = s.rsc ∧ t.ws = s.ws ∧ t.evu = s.evu) ∧
        ∀ id r p, e.talker = some id → recordOf s.rsc.records id = some r → r.body = .talk p →
          r.state ≠ .pendingRelease .discard → (s.port r.host).state ≠ .detaching →
          (∀ id', id' ≠ id → recordOf t.rsc.records id' = recordOf s.rsc.records id') ∧
          (∀ id' g, ¬(id' = id ∧ g = r.host) → entriesOf t.ws.queues id' g = entriesOf s.ws.queues id' g) ∧
          (∀ g, g ≠ r.host → t.store g = s.store g) ∧
          (∀ w es, entriesOf s.ws.queues id r.host = .word w :: es →
            Driven t w ∧ t.fre.account = some (.sentQueued w) ∧
            entriesOf t.ws.queues id r.host = es ∧ (t.store r.host).held = (s.store r.host).held - 1 ∧
            t.ws.free = s.ws.free + 1 ∧ t.evu = s.evu ∧
            recordOf t.rsc.records id = some { r with body := .talk { p with lastWord := some w } }) ∧
          (∀ es, entriesOf s.ws.queues id r.host = .silence :: es →
            Undriven t ∧ t.fre.account = some .notSent ∧
            entriesOf t.ws.queues id r.host = es ∧ (t.store r.host).held = (s.store r.host).held - 1 ∧
            t.ws.free = s.ws.free + 1 ∧ t.evu = s.evu ∧ t.rsc = s.rsc) ∧
          (entriesOf s.ws.queues id r.host = [] →
            t.ws = s.ws ∧
            (p.fill = .silent → Undriven t ∧ t.fre.account = some .notSent) ∧
            (p.fill = .pattern → Driven t s.fre.inUse.idle ∧ t.fre.account = some (.sentFill s.fre.inUse.idle)) ∧
            (p.fill = .repeatLast →
              Driven t (p.lastWord.getD s.fre.inUse.idle) ∧
              t.fre.account = some (.sentFill (p.lastWord.getD s.fre.inUse.idle))) ∧
            recordOf t.rsc.records id = some { r with body := .talk { p with
              underruns := if p.underruns = 0xFF#8 then 0xFF#8 else p.underruns + 1#8, reported := true } } ∧
            t.evu = { s.evu with
              fromTransmit := s.evu.fromTransmit ++
                if p.reported then [] else [(r.host, ⟨.underrun r.slot, s.fre.frame.setWidth 16⟩)] }))

/-- R133, R134, R137, R10: at a slot end the word of the slot is the one the part sent, cut to the width, with SELF and
for a fill FILL, or else the sampled word with no flag; it is offered, tagged with the Receive Path's frame number, to
each listener of the slot in the map but those in PENDING_RELEASE(DISCARD) or of a DETACHING port, and to no other. At
the falling edge a leader drives HBCLK low, and a follower's sample of HFSYNC becomes the previous one (R69, R72). -/
def Obligations.SlotEndOffersTheWordToItsListeners : Prop :=
  ∀ (s : State) (hfsync rxd : Bool) (x : Nat) (sample : Word),
    fallingNext s = true → rscQuiet s = true → recognised s.fre hfsync = false →
    0 < s.fre.inUse.width → x < s.fre.inUse.slots → s.fre.bitPos + 1 = (x + 1) * s.fre.inUse.width →
    sample = (s.fre.rxWord.getD 0#32 <<< 1) ||| (if rxd then 1#32 else 0#32) →
    ∃ t os, exec (.slotEnd hfsync rxd) s = .next t ∧ PortsKept s t ∧ t.rsc = s.rsc ∧ t.evu = s.evu ∧
      t.pending = s.pending ∧
      t.ws = { s.ws with fromFre := s.ws.fromFre ++ if os = [] then [] else [.offers os] } ∧
      t.fre =
        { s.fre with
          clkHigh := false, account := none, rxWord := none
          hbclk := if s.fre.inUse.mode = .leader then some false else none
          prevSync := if s.fre.inUse.mode = .follower then some hfsync else s.fre.prevSync } ∧
      (∀ o ∈ os, o.slot = x ∧ o.frame = s.fre.rpFrame ∧
        (∀ w, s.fre.account = some (.sentQueued w) →
          o.word = w &&& BitVec.ofNat 32 (2 ^ s.fre.inUse.width - 1) ∧ o.self = true ∧ o.fill = false) ∧
        (∀ w, s.fre.account = some (.sentFill w) →
          o.word = w &&& BitVec.ofNat 32 (2 ^ s.fre.inUse.width - 1) ∧ o.self = true ∧ o.fill = true) ∧
        (s.fre.account = some .notSent ∨ s.fre.account = none →
          o.word = sample ∧ o.self = false ∧ o.fill = false)) ∧
      ∀ g, (∃ o ∈ os, o.host = g) ↔
        ∃ e, s.rsc.map[x]? = some e ∧ ∃ id ∈ e.listeners, ∃ r, recordOf s.rsc.records id = some r ∧
          r.host = g ∧ r.state ≠ .pendingRelease .discard ∧ (s.port g).state ≠ .detaching

/-- R68 to R70, R72, R74 to R76: between the slot events of a frame a rising edge moves on to the next bit position,
whose bit of the word goes out most significant first, or, in the gap, releases the transmit lines; a falling edge takes
the sample of HRXD in a slot and none in the gap. A leader drives HBCLK high at the one and low at the other, and HFSYNC
high within slot 0 in the WORD style and low elsewhere past bit position 0; a follower drives neither, and its sample of
HFSYNC at a falling edge becomes the previous one. Nothing else changes. -/
def Obligations.BitClockMovesOneBit : Prop :=
  ∀ (s : State) (hfsync rxd : Bool) (w g f n : Nat) (clock : Bool → Option Bool) (pulse : Option Bool),
    (∀ level, clock level = if s.fre.inUse.mode = .leader then some level else none) →
    pulse = (if s.fre.inUse.mode = .leader
      then some (decide (s.fre.inUse.sync = .word ∧ s.fre.bitPos + 1 < s.fre.inUse.width)) else none) →
    w = s.fre.inUse.width → f = s.fre.inUse.slots → n = f * w + s.fre.inUse.gap → 0 < w → g = f * w →
    inFrame s = true → s.fre.slot0Due = false → s.rsc.awaiting = none →
    (s.fre.clkHigh = false → s.fre.bitPos + 1 < n →
      (s.fre.bitPos + 1 < g → (s.fre.bitPos + 1) % w ≠ 0) →
      ∃ t, exec (.bitClock .rising hfsync rxd) s = .next t ∧ PortsKept s t ∧ t.rsc = s.rsc ∧ t.ws = s.ws ∧
        t.evu = s.evu ∧ t.pending = s.pending ∧
        (s.fre.bitPos + 1 < g →
          t.fre = { s.fre with
            bitPos := s.fre.bitPos + 1, clkHigh := true, hbclk := clock true, hfsync := pulse,
            htxd := s.fre.txWord.map fun x => x.getLsbD (w - 1 - (s.fre.bitPos + 1) % w) }) ∧
        (g ≤ s.fre.bitPos + 1 →
          t.fre = { s.fre with
            bitPos := s.fre.bitPos + 1, clkHigh := true, hbclk := clock true, hfsync := pulse,
            txWord := none, htxd := none, htxen := false })) ∧
    (s.fre.clkHigh = true → (s.fre.bitPos < g → (s.fre.bitPos + 1) % w ≠ 0) →
      ¬(s.fre.inUse.mode = .follower ∧ s.fre.prevSync = some false ∧ hfsync = true) →
      ∃ t, exec (.bitClock .falling hfsync rxd) s = .next t ∧ PortsKept s t ∧ t.rsc = s.rsc ∧ t.ws = s.ws ∧
        t.evu = s.evu ∧ t.pending = s.pending ∧
        t.fre = { s.fre with
          clkHigh := false, hbclk := clock false
          prevSync := if s.fre.inUse.mode = .follower then some hfsync else s.fre.prevSync
          rxWord := if s.fre.bitPos < g
            then some ((s.fre.rxWord.getD 0#32 <<< 1) ||| (if rxd then 1#32 else 0#32))
            else s.fre.rxWord })

/-- R66, R67, R68: past slot 0 the next slot start is slot x exactly where the FRE waits for the rising edge that begins
bit position x times W, x below F; the samples of a slot, the first the most significant bit, make its word
right-justified with the upper bits clear; and a word cut to a width keeps exactly its low bits. -/
def Obligations.SlotsAndWordsStandAtTheirBits : Prop :=
  (∀ (s : State) (x : Nat), 0 < s.fre.inUse.width → s.fre.slot0Due = false →
    (nextSlotStart s = some x ↔
      risingNext s = true ∧ 0 < x ∧ x < s.fre.inUse.slots ∧ s.fre.bitPos + 1 = x * s.fre.inUse.width)) ∧
  (∀ bits : List Bool, bits.length ≤ 32 → bits ≠ [] →
    ∃ w, bits.foldl (fun rx b => some (shiftIn rx b)) none = some w ∧
      ∀ i, i < 32 → w.getLsbD i = (decide (i < bits.length) && bits.getD (bits.length - 1 - i) false)) ∧
  ∀ (width : Nat) (x : Word) (i : Nat), width ≤ 32 → i < 32 →
    (cut width x).getLsbD i = (decide (i < width) && x.getLsbD i)

/-! ### The Word Store (R101 to R122, R138 to R145) -/

/-- R101, R102: every step keeps the cell laws: each host's held count is its transmit entries plus its receive
records, free and held cells make 1024, no host holds more than its quota, the quotas make at most 1024. -/
def Obligations.CellLawIsKept : Prop := ∀ s t : State, CellLaw s → step s = .next t → CellLaw t

/-- R112: SET_QUOTA is refused with BAD_ARGUMENT where the payload is not one value of 0 to 1024, with QUOTA below the
held count or where the increase exceeds the unallocated pool, and otherwise sets the caller's quota alone. On OK and on
QUOTA the response carries quota, held count and unallocated pool as they stand after it. -/
def Obligations.SetQuotaIsCheckedAgainstHeldCountAndPool : Prop :=
  ∀ (s : State) (h : HostId) (r : Request), Asked s h .setQuota r → mayTake s .ws h = true →
    ∃ t res payload, exec (.setQuota h) s = .next t ∧ Replied s t h r res payload ∧
      t.rsc = s.rsc ∧ t.fre = s.fre ∧ t.evu = s.evu ∧ t.pending = s.pending ∧
      (r.payload.length ≠ 2 → res = .badArgument ∧ payload = [] ∧ t.ws = s.ws) ∧
      (∀ v : Half, r.payload = be16 v →
        (1024 < v.toNat → res = .badArgument ∧ payload = [] ∧ t.ws = s.ws) ∧
        (v.toNat ≤ 1024 →
          payload = be16 (BitVec.ofNat 16 (t.store h).quota) ++ be16 (BitVec.ofNat 16 (t.store h).held) ++
            be16 (BitVec.ofNat 16 (1024 - sumHosts fun g => (t.store g).quota)) ∧
          if v.toNat < (s.store h).held ∨
              (s.store h).quota < v.toNat ∧
                1024 - sumHosts (fun g => (s.store g).quota) < v.toNat - (s.store h).quota
          then res = .quota ∧ t.ws = s.ws
          else res = .ok ∧
            t.ws = { s.ws with hosts := s.ws.hosts.set h { s.store h with quota := v.toNat } }))

/-- R114, R115, Table 30: a QUERY_HOST whose four parts are read at once is answered OK with the port state, vote,
quota, held count, transmit entries, receive records, flags, drop count, free cells, pool and the four claim counts of
the host named, and changes nothing; a host outside H0 to H3 is refused with BAD_ARGUMENT. The parts may be read one by
one, each of its own moment: a step that leaves a part unread keeps the request in progress with the parts read so far,
and the response carries them (log 14). -/
def Obligations.QueryHostReportsTheHost : Prop :=
  ∀ (s : State) (h : HostId) (r : Request) (parts : QueryParts),
    Asked s h .queryHost r → mayTake s .ws h = true →
    (r.payload ∉ [[0x00#8], [0x01#8], [0x02#8], [0x03#8]] →
      ∃ t, exec (.queryHost h parts) s = .next t ∧ Replied s t h r .badArgument [] ∧ BlocksKept s t) ∧
    (∀ g, r.payload = [hostCode g] → parts = ⟨true, false, false, false⟩ → r.report = HostReport.empty →
      ∃ t, exec (.queryHost h parts) s = .next t ∧ BlocksKept s t ∧ OthersKept s t h ∧
        portView (t.port h) =
          { portView (s.port h) with
            inProgress := some { r with passed := [], report := ⟨some (wsReport s g), none, none, none⟩ } }) ∧
    (∀ g w c p, r.payload = [hostCode g] → parts = ⟨false, false, true, false⟩ →
      r.report = ⟨some w, some c, none, some p⟩ →
      ∃ t, exec (.queryHost h parts) s = .next t ∧ BlocksKept s t ∧
        Replied s t h r .ok (hostPayload w c (s.fre.votes.get g) p)) ∧
    ∀ g, r.payload = [hostCode g] → parts = ⟨true, true, true, true⟩ → r.report = HostReport.empty →
      rscFree s = true →
      ∃ t, exec (.queryHost h parts) s = .next t ∧ BlocksKept s t ∧
        Replied s t h r .ok
          ([(s.port g).state.code, yesNo (s.fre.votes.get g)] ++
            be16 (BitVec.ofNat 16 (s.store g).quota) ++ be16 (BitVec.ofNat 16 (s.store g).held) ++
            be16 (BitVec.ofNat 16 (txEntries s.ws.queues g)) ++
            be16 (BitVec.ofNat 16 (s.store g).rxq.length) ++
            [(if (s.store g).latch then 0x01#8 else 0x00#8) ||| (if (s.store g).resume then 0x02#8 else 0x00#8)] ++
            be16 (s.store g).drops ++ be16 (BitVec.ofNat 16 s.ws.free) ++
            be16 (BitVec.ofNat 16 (1024 - sumHosts fun x => (s.store x).quota)) ++
            [nat8 (s.rsc.records.countP fun q => q.host = g ∧ q.state = .pendingAdd),
             nat8 (s.rsc.records.countP fun q => q.host = g ∧ q.state = .active),
             nat8 (s.rsc.records.countP fun q => q.host = g ∧ q.state = .pendingRelease .drain),
             nat8 (s.rsc.records.countP fun q => q.host = g ∧ q.state = .pendingRelease .discard)])

/-- R119, R121, R103, R40: a WRITE_WORDS whose record is in PENDING_ADD or ACTIVE and whose queue and cells have room
appends its entries in order, charges a cell for each, clears underrun reported and, under auto-renew, restarts the
lease of an ACTIVE leased record. The response carries the entries queued and the room left. -/
def Obligations.WriteWordsQueuesItsEntries : Prop :=
  ∀ (s : State) (h : HostId) (r : Request) (slot : Nat) (es : List TxEntry) (c : ClaimRec) (p : TalkPart)
    (old : List TxEntry),
    StoreLaw s → Asked s h .writeWords r → mayTake s .ws h = true → rscFree s = true →
    parseWrite r.payload = some (slot, es) →
    c ∈ s.rsc.records → c.host = h → c.slot = slot → c.body = .talk p → c.forward = true →
    (∃ q ∈ s.ws.queues, q.id = c.id ∧ q.owner = h) → old = entriesOf s.ws.queues c.id h →
    old.length + es.length ≤ p.depth → (s.store h).held + es.length ≤ (s.store h).quota →
    ∃ t, exec (.writeWords h) s = .next t ∧
      Replied s t h r .ok [nat8 (old.length + es.length),
        nat8 (min (p.depth - (old.length + es.length))
          ((s.store h).quota - ((s.store h).held + es.length)))] ∧
      entriesOf t.ws.queues c.id h = old ++ es ∧
      (∀ id g, ¬(id = c.id ∧ g = h) → entriesOf t.ws.queues id g = entriesOf s.ws.queues id g) ∧
      t.ws =
        { s.ws with
          queues := t.ws.queues, free := s.ws.free - es.length
          hosts := s.ws.hosts.set h { s.store h with held := (s.store h).held + es.length } } ∧
      t.rsc =
        { s.rsc with
          records := s.rsc.records.map fun q =>
            if q.id = c.id then
              { c with
                body := .talk { p with reported := false }
                remaining := if p.autoRenew = true ∧ c.state = .active ∧ c.lease ≠ 0#16
                  then some c.lease else c.remaining }
            else q } ∧
      t.fre = s.fre ∧ t.evu = s.evu ∧ t.pending = s.pending

/-- R120: the first check of WRITE_WORDS that fails gives the result: the arguments BAD_ARGUMENT, the record RELEASING
or NO_CLAIM, the queue room QUEUE_FULL, the cell room NO_CELLS, the last two with the room available. A refused write
changes no queue, cell, lease or record. -/
def Obligations.WriteWordsIsRefusedByItsFirstFailingCheck : Prop :=
  ∀ (s : State) (h : HostId) (r : Request),
    StoreLaw s → Asked s h .writeWords r → mayTake s .ws h = true → rscFree s = true →
    (parseWrite r.payload = none →
      ∃ t, exec (.writeWords h) s = .next t ∧ Replied s t h r .badArgument [] ∧ BlocksKept s t) ∧
    ∀ slot es, parseWrite r.payload = some (slot, es) →
      ((∀ c ∈ s.rsc.records, c.host = h → c.slot = slot → c.role = .talk → c.forward = false) →
        ((∃ c ∈ s.rsc.records, c.host = h ∧ c.slot = slot ∧ c.role = .talk) →
          ∃ t, exec (.writeWords h) s = .next t ∧ Replied s t h r .releasing [] ∧ BlocksKept s t) ∧
        ((∀ c ∈ s.rsc.records, ¬(c.host = h ∧ c.slot = slot ∧ c.role = .talk)) →
          ∃ t, exec (.writeWords h) s = .next t ∧ Replied s t h r .noClaim [] ∧ BlocksKept s t)) ∧
      ∀ c p old room, c ∈ s.rsc.records → c.host = h → c.slot = slot → c.body = .talk p → c.forward = true →
        old = entriesOf s.ws.queues c.id h →
        room = min (p.depth - old.length) ((s.store h).quota - (s.store h).held) →
        (p.depth < old.length + es.length →
          ∃ t, exec (.writeWords h) s = .next t ∧ Replied s t h r .queueFull [nat8 room] ∧ BlocksKept s t) ∧
        (old.length + es.length ≤ p.depth → (s.store h).quota < (s.store h).held + es.length →
          ∃ t, exec (.writeWords h) s = .next t ∧ Replied s t h r .noCells [nat8 room] ∧ BlocksKept s t)

/-- R144, R104: READ_WORDS removes the oldest records of the caller's receive queue, as many as the maximum or the queue
holds, returns a cell for each, and answers OK with the records in order, the number left and the latch; a maximum
outside 1 to 32, or a payload that is not one byte, is refused with BAD_ARGUMENT and changes nothing. -/
def Obligations.ReadWordsTakesTheOldestRecords : Prop :=
  ∀ (s : State) (h : HostId) (r : Request), Asked s h .readWords r → mayTake s .ws h = true →
    ((∀ b, r.payload = [b] → b = 0x00#8 ∨ 32 < b.toNat) →
      ∃ t, exec (.readWords h) s = .next t ∧ Replied s t h r .badArgument [] ∧ BlocksKept s t) ∧
    ∀ b, r.payload = [b] → 1 ≤ b.toNat → b.toNat ≤ 32 →
      ∃ t, exec (.readWords h) s = .next t ∧
        Replied s t h r .ok
          (be16 (BitVec.ofNat 16 ((s.store h).rxq.length - b.toNat)) ++
            [yesNo (s.store h).latch, nat8 (min b.toNat (s.store h).rxq.length)] ++
            ((s.store h).rxq.take b.toNat).flatMap fun q =>
              [nat8 q.slot, q.tag, (if q.self then 0x01#8 else 0x00#8) ||| (if q.fill then 0x02#8 else 0x00#8) |||
                (if q.gap then 0x04#8 else 0x00#8)] ++ be32 q.word) ∧
        t.ws =
          { s.ws with
            free := s.ws.free + min b.toNat (s.store h).rxq.length
            hosts := s.ws.hosts.set h
              { s.store h with
                rxq := (s.store h).rxq.drop b.toNat
                held := (s.store h).held - min b.toNat (s.store h).rxq.length } } ∧
        t.rsc = s.rsc ∧ t.fre = s.fre ∧ t.evu = s.evu ∧ t.pending = s.pending

/-- R142: CLEAR_OVERFLOW clears a set latch and sets resume-pending, and with the latch clear changes nothing; the
response reports whether a latch was cleared and the drop count found. -/
def Obligations.ClearOverflowSetsResumePending : Prop :=
  ∀ (s : State) (h : HostId) (r : Request), Asked s h .clearOverflow r → mayTake s .ws h = true →
    ∃ t, exec (.clearOverflow h) s = .next t ∧
      Replied s t h r .ok ((if (s.store h).latch then 0x01#8 else 0x00#8) :: be16 (s.store h).drops) ∧
      t.ws =
        { s.ws with
          hosts := s.ws.hosts.set h
            { s.store h with latch := false, resume := (s.store h).resume || (s.store h).latch } } ∧
      t.rsc = s.rsc ∧ t.fre = s.fre ∧ t.evu = s.evu ∧ t.pending = s.pending

/-- R138, R135, R136, R141: an offer taken by the WS is counted as a drop where the latch is set, passed over where
resume-pending is set, dropped with the latch set and RX_OVERFLOW handed over where the held count is the quota, and
otherwise appended as a record tagged with the low 8 bits of its frame number, with GAP where gap-pending was set,
and charged. No other host's part changes. -/
def Obligations.OfferIsAppendedDroppedOrPassedOver : Prop :=
  ∀ (s : State) (h : HostId) (os rest : List FreWork) (l1 l2 : List Offer) (o : Offer),
    s.ws.fromFre = .offers (l1 ++ o :: l2) :: rest → o.host = h → (∀ q ∈ l1, q.host ≠ h) →
    os = (if l1 ++ l2 = [] then rest else .offers (l1 ++ l2) :: rest) →
    (s.store h).held ≤ (s.store h).quota →
    ∃ t, exec (.rxOffer h) s = .next t ∧ PortsKept s t ∧ t.rsc = s.rsc ∧ t.fre = s.fre ∧
      t.pending = s.pending ∧ t.ws.fromFre = os ∧ t.ws.queues = s.ws.queues ∧ t.ws.asks = s.ws.asks ∧
      (∀ g, g ≠ h → t.store g = s.store g) ∧
      if (s.store h).latch = true then
        t.store h = { s.store h with
          drops := if (s.store h).drops = 0xFFFF#16 then 0xFFFF#16 else (s.store h).drops + 1#16 } ∧
        t.ws.free = s.ws.free ∧ t.evu = s.evu
      else if (s.store h).resume = true then
        t.store h = s.store h ∧ t.ws.free = s.ws.free ∧ t.evu = s.evu
      else if (s.store h).held = (s.store h).quota then
        t.store h = { s.store h with
          latch := true
          drops := if (s.store h).drops = 0xFFFF#16 then 0xFFFF#16 else (s.store h).drops + 1#16 } ∧
        t.ws.free = s.ws.free ∧
        t.evu = { s.evu with fromWs := s.evu.fromWs ++ [(h, ⟨.rxOverflow, o.frame.setWidth 16⟩)] }
      else
        t.store h = { s.store h with
          rxq := (s.store h).rxq ++
            [⟨o.slot, o.frame.setWidth 8, o.word, o.self, o.fill, (s.store h).gap⟩]
          gap := false, held := (s.store h).held + 1 } ∧
        t.ws.free = s.ws.free - 1 ∧ t.evu = s.evu

/-- R105, R140, R143: a loss notice sets gap-pending for each host it names whose port is ATTACHED; a boundary notice
clears resume-pending and sets gap-pending for each host that had resume-pending. Neither does anything else. The WS's
session end takes its host out of the notices outstanding (`SessionEndsEmptyTheHostsQueues`, log 30). -/
def Obligations.NoticesAtTheWordStore : Prop :=
  ∀ (s : State) (rest : List FreWork),
    (∀ hs, s.ws.fromFre = .loss hs :: rest →
      ∃ t, exec .lossNotice s = .next t ∧ PortsKept s t ∧ t.rsc = s.rsc ∧ t.fre = s.fre ∧ t.evu = s.evu ∧
        t.pending = s.pending ∧ t.ws = { s.ws with fromFre := rest, hosts := t.ws.hosts } ∧
        ∀ g, t.store g =
          { s.store g with
            gap := (s.store g).gap || (decide (g ∈ hs) && decide ((s.port g).state = .attached)) }) ∧
    (s.ws.fromFre = .boundary :: rest →
      ∃ t, exec .wsBoundaryNotice s = .next t ∧ PortsKept s t ∧ t.rsc = s.rsc ∧ t.fre = s.fre ∧
        t.evu = s.evu ∧ t.pending = s.pending ∧ t.ws = { s.ws with fromFre := rest, hosts := t.ws.hosts } ∧
        ∀ g, t.store g =
          { s.store g with resume := false, gap := (s.store g).gap || (s.store g).resume })

/-- R107, R108: a flush empties the queue in place and returns one cell for each entry to its owner; an ending flushes
and removes it; either does nothing to a queue already ended. -/
def Obligations.FlushAndEndingReturnTheCells : Prop :=
  ∀ (s : State) (id : Nat) (a b : List TxQueue) (q : TxQueue) (c : Instr) (ask : QueueAsk),
    (c = .queueFlush id ∧ ask = .flush id) ∨ (c = .queueEnding id ∧ ask = .ending id) →
    ask ∈ s.ws.asks →
    (s.ws.queues = a ++ q :: b → q.id = id → (∀ x ∈ a, x.id ≠ id) →
      ∃ t, exec c s = .next t ∧ PortsKept s t ∧ t.rsc = s.rsc ∧ t.fre = s.fre ∧ t.evu = s.evu ∧
        t.pending = s.pending ∧
        t.ws =
          { s.ws with
            asks := s.ws.asks.erase ask
            queues := if ask = .flush id then a ++ { q with entries := [] } :: b else a ++ b
            free := s.ws.free + q.entries.length
            hosts := s.ws.hosts.set q.owner
              { s.store q.owner with held := (s.store q.owner).held - q.entries.length } }) ∧
    ((∀ x ∈ s.ws.queues, x.id ≠ id) →
      ∃ t, exec c s = .next t ∧ PortsKept s t ∧ t.rsc = s.rsc ∧ t.fre = s.fre ∧ t.evu = s.evu ∧
        t.pending = s.pending ∧ t.ws = { s.ws with asks := s.ws.asks.erase ask })

/-- R56, R101, R108: whatever the order in which a flush, an ending and the owner's session end at the WS reach one
queue, each entry's cell is returned once: any two of them lead to the same state in either order, and there every cell
is again free or counted as held exactly once. -/
def Obligations.CellsReturnOnceInEitherOrder : Prop :=
  ∀ (s : State) (id : Nat) (h : HostId) (c d : Instr),
    c ∈ [.queueFlush id, .queueEnding id, .wsSessionEnd h] → d ∈ [.queueFlush id, .queueEnding id, .wsSessionEnd h] →
    CellLaw s → PortLaw s → (s.ws.queues.map TxQueue.id).Nodup → .flush id ∈ s.ws.asks → .ending id ∈ s.ws.asks →
    (s.port h).toReport.ws = true →
    ∀ t u v w, exec c s = .next t → exec d t = .next u → exec d s = .next v → exec c v = .next w → u = w ∧ CellLaw u

/-- R105, R110, R111, R147, R157: the WS's session end empties the host's transmit and receive queues, returns their cells, clears its
latch, resume-pending and gap-pending, keeps its quota and drop count, leaves every other host, the offers and the
requests of the RSC alone, and reports. The loss notices not yet taken name every host they did but this one; that they
set nothing for it even where it is ATTACHED again when they are taken is an inference (log 30). The EVU's session end
empties the host's event queue, clears its EVENTS_LOST, leaves every other queue and the events not yet taken alone, and
reports. -/
def Obligations.SessionEndsEmptyTheHostsQueues : Prop :=
  ∀ (s : State) (h : HostId),
    (CellLaw s → (s.port h).toReport.ws = true →
    ∃ t, exec (.wsSessionEnd h) s = .next t ∧
      Reported s t h { (s.port h).toReport with ws := false } ∧
      t.ws =
        { s.ws with
          queues := s.ws.queues.map fun q => if q.owner = h then { q with entries := [] } else q
          free := s.ws.free + (s.store h).held
          fromFre := s.ws.fromFre.map fun w =>
            match w with
            | .loss hs => .loss (hs.filter fun g => decide (g ≠ h))
            | .offers os => .offers os
            | .boundary => .boundary
          hosts := s.ws.hosts.set h
            { s.store h with held := 0, rxq := [], latch := false, resume := false, gap := false } } ∧
      t.rsc = s.rsc ∧ t.fre = s.fre ∧ t.evu = s.evu ∧ t.pending = s.pending) ∧
    ((s.port h).toReport.evu = true →
    ∃ t, exec (.evuSessionEnd h) s = .next t ∧
      Reported s t h { (s.port h).toReport with evu := false } ∧
      t.evq h = ⟨[], false⟩ ∧ (∀ g, g ≠ h → t.evq g = s.evq g) ∧
      (∀ src, handedBy t.evu src = handedBy s.evu src) ∧
      t.rsc = s.rsc ∧ t.fre = s.fre ∧ t.ws = s.ws ∧ t.pending = s.pending)

/-- R111, R135, R138: every step leaves the overflow latch and resume-pending never set together for any host, FILL never
set without SELF in any receive record or offer, and no offer outstanding to a DETACHING host, so that nothing is
charged or dropped on it (that such offers are taken before the port becomes DETACHING is an inference, log 11). -/
def Obligations.ReceiveFlagLawsAreKept : Prop :=
  ∀ s t : State, LatchLaw s → FillLaw s → OfferLaw s → step s = .next t → LatchLaw t ∧ FillLaw t ∧ OfferLaw t

/-! ### Events (R149 to R157) -/

/-- R152, R153: the EVU takes the oldest event an emitter has handed over (of the FRE, the oldest for that host). It
discards it where the host's port is not ATTACHED, appends it where the queue holds fewer than 16 records, and otherwise
discards it and sets EVENTS_LOST. -/
def Obligations.EventIsAppendedOrDiscarded : Prop :=
  ∀ (s : State) (src : Emitter) (h : HostId) (e : Event) (l1 l2 : List (HostId × Event)),
    handedBy s.evu src = l1 ++ (h, e) :: l2 → (∀ x ∈ l1, src = .fre ∧ x.1 ≠ h) →
    (s.evq h).events.length ≤ 16 →
    ∃ t, exec (.eventTaken src h) s = .next t ∧ PortsKept s t ∧ t.rsc = s.rsc ∧ t.fre = s.fre ∧ t.ws = s.ws ∧
      t.pending = s.pending ∧ handedBy t.evu src = l1 ++ l2 ∧
      (∀ src', src' ≠ src → handedBy t.evu src' = handedBy s.evu src') ∧
      (∀ g, g ≠ h → t.evq g = s.evq g) ∧
      if (s.port h).state ≠ .attached then t.evq h = s.evq h
      else if (s.evq h).events.length < 16 then
        t.evq h = { s.evq h with events := (s.evq h).events ++ [e] }
      else t.evq h = { s.evq h with lost := true }

/-- R155, Tables 27, 32, 33, R182: NEXT_EVENTS removes the oldest records, as many as the maximum or the queue holds,
reads and clears EVENTS_LOST, and answers OK with the number left, the flag found and the records, six bytes each, absent
fields as 0xFF; a maximum outside 1 to 8, or a payload that is not one byte, is refused with BAD_ARGUMENT and changes
nothing. -/
def Obligations.NextEventsTakesTheOldestEvents : Prop :=
  ∀ (s : State) (h : HostId) (r : Request), Asked s h .nextEvents r →
    ((∀ b, r.payload = [b] → b = 0x00#8 ∨ 8 < b.toNat) →
      ∃ t, exec (.nextEvents h) s = .next t ∧ Replied s t h r .badArgument [] ∧ BlocksKept s t) ∧
    ∀ b, r.payload = [b] → 1 ≤ b.toNat → b.toNat ≤ 8 →
      ∃ t, exec (.nextEvents h) s = .next t ∧
        Replied s t h r .ok
          ([nat8 ((s.evq h).events.length - b.toNat), yesNo (s.evq h).lost,
            nat8 (min b.toNat (s.evq h).events.length)] ++
            ((s.evq h).events.take b.toNat).flatMap fun e =>
              (match e.body with
                | .adopted slot role => [0x01#8, nat8 slot, role.code, 0xFF#8]
                | .ended slot role .released => [0x02#8, nat8 slot, role.code, 0x00#8]
                | .ended slot role .expired => [0x02#8, nat8 slot, role.code, 0x01#8]
                | .talkerChanged slot (some g) => [0x03#8, nat8 slot, 0x00#8, hostCode g]
                | .talkerChanged slot none => [0x03#8, nat8 slot, 0x00#8, 0x04#8]
                | .underrun slot => [0x04#8, nat8 slot, 0x00#8, 0xFF#8]
                | .rxOverflow => [0x05#8, 0xFF#8, 0xFF#8, 0xFF#8]
                | .engine st => [0x06#8, 0xFF#8, 0xFF#8, st.code]) ++ be16 e.frame) ∧
        t.evq h = ⟨(s.evq h).events.drop b.toNat, false⟩ ∧ (∀ g, g ≠ h → t.evq g = s.evq g) ∧
        (∀ src, handedBy t.evu src = handedBy s.evu src) ∧
        t.rsc = s.rsc ∧ t.fre = s.fre ∧ t.ws = s.ws ∧ t.pending = s.pending

end
end

