-- ==== Sys2Proof/Laws/State.lean ====
section
/-! SUPPORT. What each update of the state does to each part of it: one lemma per part per update, true by
unfolding, so that no proof unfolds a record update. -/

namespace Sys2Proof.Machine

/-! ### One value per host -/

theorem mem_hostList (h : HostId) : h ∈ hostList := by cases h <;> decide

@[simp] theorem Quad.get_all {α : Type} (a : α) (h : HostId) : (Quad.all a).get h = a := by cases h <;> rfl

@[simp] theorem Quad.get_set_self {α : Type} (q : Quad α) (h : HostId) (a : α) : (q.set h a).get h = a := by
  cases h <;> rfl

theorem Quad.get_set_ne {α : Type} (q : Quad α) {h g : HostId} (a : α) (n : g ≠ h) :
    (q.set h a).get g = q.get g := by
  cases h <;> cases g <;> first | rfl | exact absurd rfl n

@[simp] theorem Quad.get_mapHosts {α β : Type} (q : Quad α) (f : HostId → α → β) (h : HostId) :
    (q.mapHosts f).get h = f h (q.get h) := by cases h <;> rfl

theorem Quad.ext_get {α : Type} {q r : Quad α} (e : ∀ h, q.get h = r.get h) : q = r := by
  have e0 := e .h0
  have e1 := e .h1
  have e2 := e .h2
  have e3 := e .h3
  cases q
  cases r
  simp only [Quad.get] at e0 e1 e2 e3
  simp only [e0, e1, e2, e3]

@[simp] theorem Quad.set_get {α : Type} (q : Quad α) (h : HostId) : q.set h (q.get h) = q := by
  cases h <;> rfl

/-! ### The part an update changes -/

@[simp] theorem State.onPort_port_self (s : State) (h : HostId) (f : Port → Port) :
    (s.onPort h f).port h = f (s.port h) := Quad.get_set_self ..

theorem State.onPort_port_ne (s : State) {h g : HostId} (f : Port → Port) (n : g ≠ h) :
    (s.onPort h f).port g = s.port g := Quad.get_set_ne _ _ n

@[simp] theorem State.onStore_store_self (s : State) (h : HostId) (f : WsHost → WsHost) :
    (s.onStore h f).store h = f (s.store h) := Quad.get_set_self ..

theorem State.onStore_store_ne (s : State) {h g : HostId} (f : WsHost → WsHost) (n : g ≠ h) :
    (s.onStore h f).store g = s.store g := Quad.get_set_ne _ _ n

@[simp] theorem State.onStore_queues (s : State) (h : HostId) (f : WsHost → WsHost) :
    (s.onStore h f).ws.queues = s.ws.queues := rfl

@[simp] theorem State.onStore_free (s : State) (h : HostId) (f : WsHost → WsHost) :
    (s.onStore h f).ws.free = s.ws.free := rfl

@[simp] theorem State.onStore_asks (s : State) (h : HostId) (f : WsHost → WsHost) :
    (s.onStore h f).ws.asks = s.ws.asks := rfl

@[simp] theorem State.onStore_fromFre (s : State) (h : HostId) (f : WsHost → WsHost) :
    (s.onStore h f).ws.fromFre = s.ws.fromFre := rfl

@[simp] theorem State.onStores_store (s : State) (f : HostId → WsHost → WsHost) (h : HostId) :
    (s.onStores f).store h = f h (s.store h) := Quad.get_mapHosts ..

@[simp] theorem State.onStores_queues (s : State) (f : HostId → WsHost → WsHost) :
    (s.onStores f).ws.queues = s.ws.queues := rfl

@[simp] theorem State.onStores_free (s : State) (f : HostId → WsHost → WsHost) :
    (s.onStores f).ws.free = s.ws.free := rfl

@[simp] theorem State.onStores_asks (s : State) (f : HostId → WsHost → WsHost) :
    (s.onStores f).ws.asks = s.ws.asks := rfl

@[simp] theorem State.onStores_fromFre (s : State) (f : HostId → WsHost → WsHost) :
    (s.onStores f).ws.fromFre = s.ws.fromFre := rfl

@[simp] theorem State.onEvq_evq_self (s : State) (h : HostId) (f : EvQueue → EvQueue) :
    (s.onEvq h f).evq h = f (s.evq h) := Quad.get_set_self ..

theorem State.onEvq_evq_ne (s : State) {h g : HostId} (f : EvQueue → EvQueue) (n : g ≠ h) :
    (s.onEvq h f).evq g = s.evq g := Quad.get_set_ne _ _ n

@[simp] theorem State.onRsc_rsc (s : State) (f : Rsc → Rsc) : (s.onRsc f).rsc = f s.rsc := rfl

@[simp] theorem State.onFre_fre (s : State) (f : Fre → Fre) : (s.onFre f).fre = f s.fre := rfl

@[simp] theorem State.onQueues_queues (s : State) (f : List TxQueue → List TxQueue) :
    (s.onQueues f).ws.queues = f s.ws.queues := rfl

@[simp] theorem State.onQueues_store (s : State) (f : List TxQueue → List TxQueue) :
    (s.onQueues f).store = s.store := rfl

@[simp] theorem State.onQueues_free (s : State) (f : List TxQueue → List TxQueue) :
    (s.onQueues f).ws.free = s.ws.free := rfl

@[simp] theorem State.onQueues_asks (s : State) (f : List TxQueue → List TxQueue) :
    (s.onQueues f).ws.asks = s.ws.asks := rfl

@[simp] theorem State.onQueues_fromFre (s : State) (f : List TxQueue → List TxQueue) :
    (s.onQueues f).ws.fromFre = s.ws.fromFre := rfl

theorem State.refreshAtn_port (s : State) (h : HostId) :
    s.refreshAtn.port h = { s.port h with atn := attentionNow s h } := Quad.get_mapHosts ..

@[simp] theorem State.refreshAtn_port_state (s : State) (h : HostId) :
    (s.refreshAtn.port h).state = (s.port h).state := by rw [State.refreshAtn_port]

@[simp] theorem State.refreshAtn_port_session (s : State) (h : HostId) :
    (s.refreshAtn.port h).session = (s.port h).session := by rw [State.refreshAtn_port]

@[simp] theorem State.refreshAtn_port_framer (s : State) (h : HostId) :
    (s.refreshAtn.port h).framer = (s.port h).framer := by rw [State.refreshAtn_port]

@[simp] theorem State.refreshAtn_port_inProgress (s : State) (h : HostId) :
    (s.refreshAtn.port h).inProgress = (s.port h).inProgress := by rw [State.refreshAtn_port]

@[simp] theorem State.refreshAtn_port_held (s : State) (h : HostId) :
    (s.refreshAtn.port h).held = (s.port h).held := by rw [State.refreshAtn_port]

@[simp] theorem State.refreshAtn_port_dropped (s : State) (h : HostId) :
    (s.refreshAtn.port h).dropped = (s.port h).dropped := by rw [State.refreshAtn_port]

@[simp] theorem State.refreshAtn_port_frameError (s : State) (h : HostId) :
    (s.refreshAtn.port h).frameError = (s.port h).frameError := by rw [State.refreshAtn_port]

@[simp] theorem State.refreshAtn_port_mask (s : State) (h : HostId) :
    (s.refreshAtn.port h).mask = (s.port h).mask := by rw [State.refreshAtn_port]

@[simp] theorem State.refreshAtn_port_toReport (s : State) (h : HostId) :
    (s.refreshAtn.port h).toReport = (s.port h).toReport := by rw [State.refreshAtn_port]

@[simp] theorem State.refreshAtn_port_selLow (s : State) (h : HostId) :
    (s.refreshAtn.port h).selLow = (s.port h).selLow := by rw [State.refreshAtn_port]

@[simp] theorem State.refreshAtn_port_sdoLine (s : State) (h : HostId) :
    (s.refreshAtn.port h).sdoLine = (s.port h).sdoLine := by rw [State.refreshAtn_port]

@[simp] theorem State.refreshAtn_port_sdo (s : State) (h : HostId) :
    (s.refreshAtn.port h).sdo = (s.port h).sdo := by rw [State.refreshAtn_port]

@[simp] theorem askWs_queues (asks : List QueueAsk) (s : State) : (askWs asks s).ws.queues = s.ws.queues := rfl

@[simp] theorem askWs_store (asks : List QueueAsk) (s : State) : (askWs asks s).store = s.store := rfl

@[simp] theorem askWs_free (asks : List QueueAsk) (s : State) : (askWs asks s).ws.free = s.ws.free := rfl

@[simp] theorem askWs_asks (asks : List QueueAsk) (s : State) : (askWs asks s).ws.asks = s.ws.asks ++ asks := rfl

@[simp] theorem askWs_fromFre (asks : List QueueAsk) (s : State) : (askWs asks s).ws.fromFre = s.ws.fromFre := rfl

@[simp] theorem toWs_queues (w : FreWork) (s : State) : (toWs w s).ws.queues = s.ws.queues := rfl

@[simp] theorem toWs_store (w : FreWork) (s : State) : (toWs w s).store = s.store := rfl

@[simp] theorem toWs_free (w : FreWork) (s : State) : (toWs w s).ws.free = s.ws.free := rfl

@[simp] theorem toWs_asks (w : FreWork) (s : State) : (toWs w s).ws.asks = s.ws.asks := rfl

@[simp] theorem toWs_fromFre (w : FreWork) (s : State) : (toWs w s).ws.fromFre = s.ws.fromFre ++ [w] := rfl

@[simp] theorem passOver_ports (h : HostId) (s : State) : (passOver h s).ports = s.ports := rfl

@[simp] theorem passOver_rsc (h : HostId) (s : State) : (passOver h s).rsc = s.rsc := rfl

@[simp] theorem passOver_fre (h : HostId) (s : State) : (passOver h s).fre = s.fre := rfl

@[simp] theorem passOver_evu (h : HostId) (s : State) : (passOver h s).evu = s.evu := rfl

@[simp] theorem passOver_pending (h : HostId) (s : State) : (passOver h s).pending = s.pending := rfl

@[simp] theorem passOver_queues (h : HostId) (s : State) : (passOver h s).ws.queues = s.ws.queues := rfl

@[simp] theorem passOver_store (h : HostId) (s : State) : (passOver h s).store = s.store := rfl

@[simp] theorem passOver_free (h : HostId) (s : State) : (passOver h s).ws.free = s.ws.free := rfl

@[simp] theorem passOver_asks (h : HostId) (s : State) : (passOver h s).ws.asks = s.ws.asks := rfl

@[simp] theorem passOver_fromFre (h : HostId) (s : State) :
    (passOver h s).ws.fromFre = s.ws.fromFre.map (FreWork.passingOver h) := rfl

@[simp] theorem dropAsk_queues (a : QueueAsk) (s : State) : (dropAsk a s).ws.queues = s.ws.queues := rfl

@[simp] theorem dropAsk_store (a : QueueAsk) (s : State) : (dropAsk a s).store = s.store := rfl

@[simp] theorem dropAsk_free (a : QueueAsk) (s : State) : (dropAsk a s).ws.free = s.ws.free := rfl

@[simp] theorem dropAsk_asks (a : QueueAsk) (s : State) : (dropAsk a s).ws.asks = s.ws.asks.erase a := rfl

@[simp] theorem dropAsk_fromFre (a : QueueAsk) (s : State) : (dropAsk a s).ws.fromFre = s.ws.fromFre := rfl

@[simp] theorem eventsFromRsc_evq (es : List (HostId × Event)) (s : State) :
    (eventsFromRsc es s).evq = s.evq := rfl

@[simp] theorem eventsFromRsc_fromRsc (es : List (HostId × Event)) (s : State) :
    (eventsFromRsc es s).evu.fromRsc = s.evu.fromRsc ++ es := rfl

@[simp] theorem eventFromTransmit_evq (h : HostId) (e : Event) (s : State) :
    (eventFromTransmit h e s).evq = s.evq := rfl

@[simp] theorem eventFromTransmit_fromTransmit (h : HostId) (e : Event) (s : State) :
    (eventFromTransmit h e s).evu.fromTransmit = s.evu.fromTransmit ++ [(h, e)] := rfl

@[simp] theorem eventFromWs_evq (h : HostId) (e : Event) (s : State) : (eventFromWs h e s).evq = s.evq := rfl

@[simp] theorem eventFromWs_fromWs (h : HostId) (e : Event) (s : State) :
    (eventFromWs h e s).evu.fromWs = s.evu.fromWs ++ [(h, e)] := rfl

@[simp] theorem engineEvents_evq (st : EngineState) (k : Word) (s : State) :
    (engineEvents st k s).evq = s.evq := rfl

/-! ### The parts an update leaves alone -/

/-! #### State.onPort -/

@[simp] theorem State.onPort_rsc (s : State) (h : HostId) (f : Port → Port) :
    (s.onPort h f).rsc = s.rsc := rfl

@[simp] theorem State.onPort_fre (s : State) (h : HostId) (f : Port → Port) :
    (s.onPort h f).fre = s.fre := rfl

@[simp] theorem State.onPort_ws (s : State) (h : HostId) (f : Port → Port) :
    (s.onPort h f).ws = s.ws := rfl

@[simp] theorem State.onPort_evu (s : State) (h : HostId) (f : Port → Port) :
    (s.onPort h f).evu = s.evu := rfl

@[simp] theorem State.onPort_pending (s : State) (h : HostId) (f : Port → Port) :
    (s.onPort h f).pending = s.pending := rfl

@[simp] theorem State.onPort_store (s : State) (h : HostId) (f : Port → Port) :
    (s.onPort h f).store = s.store := rfl

@[simp] theorem State.onPort_evq (s : State) (h : HostId) (f : Port → Port) :
    (s.onPort h f).evq = s.evq := rfl

/-! #### State.onStore -/

@[simp] theorem State.onStore_ports (s : State) (h : HostId) (f : WsHost → WsHost) :
    (s.onStore h f).ports = s.ports := rfl

@[simp] theorem State.onStore_rsc (s : State) (h : HostId) (f : WsHost → WsHost) :
    (s.onStore h f).rsc = s.rsc := rfl

@[simp] theorem State.onStore_fre (s : State) (h : HostId) (f : WsHost → WsHost) :
    (s.onStore h f).fre = s.fre := rfl

@[simp] theorem State.onStore_evu (s : State) (h : HostId) (f : WsHost → WsHost) :
    (s.onStore h f).evu = s.evu := rfl

@[simp] theorem State.onStore_pending (s : State) (h : HostId) (f : WsHost → WsHost) :
    (s.onStore h f).pending = s.pending := rfl

@[simp] theorem State.onStore_port (s : State) (h : HostId) (f : WsHost → WsHost) :
    (s.onStore h f).port = s.port := rfl

@[simp] theorem State.onStore_evq (s : State) (h : HostId) (f : WsHost → WsHost) :
    (s.onStore h f).evq = s.evq := rfl

/-! #### State.onStores -/

@[simp] theorem State.onStores_ports (s : State) (f : HostId → WsHost → WsHost) :
    (s.onStores f).ports = s.ports := rfl

@[simp] theorem State.onStores_rsc (s : State) (f : HostId → WsHost → WsHost) :
    (s.onStores f).rsc = s.rsc := rfl

@[simp] theorem State.onStores_fre (s : State) (f : HostId → WsHost → WsHost) :
    (s.onStores f).fre = s.fre := rfl

@[simp] theorem State.onStores_evu (s : State) (f : HostId → WsHost → WsHost) :
    (s.onStores f).evu = s.evu := rfl

@[simp] theorem State.onStores_pending (s : State) (f : HostId → WsHost → WsHost) :
    (s.onStores f).pending = s.pending := rfl

@[simp] theorem State.onStores_port (s : State) (f : HostId → WsHost → WsHost) :
    (s.onStores f).port = s.port := rfl

@[simp] theorem State.onStores_evq (s : State) (f : HostId → WsHost → WsHost) :
    (s.onStores f).evq = s.evq := rfl

/-! #### State.onEvq -/

@[simp] theorem State.onEvq_ports (s : State) (h : HostId) (f : EvQueue → EvQueue) :
    (s.onEvq h f).ports = s.ports := rfl

@[simp] theorem State.onEvq_rsc (s : State) (h : HostId) (f : EvQueue → EvQueue) :
    (s.onEvq h f).rsc = s.rsc := rfl

@[simp] theorem State.onEvq_fre (s : State) (h : HostId) (f : EvQueue → EvQueue) :
    (s.onEvq h f).fre = s.fre := rfl

@[simp] theorem State.onEvq_ws (s : State) (h : HostId) (f : EvQueue → EvQueue) :
    (s.onEvq h f).ws = s.ws := rfl

@[simp] theorem State.onEvq_pending (s : State) (h : HostId) (f : EvQueue → EvQueue) :
    (s.onEvq h f).pending = s.pending := rfl

@[simp] theorem State.onEvq_port (s : State) (h : HostId) (f : EvQueue → EvQueue) :
    (s.onEvq h f).port = s.port := rfl

@[simp] theorem State.onEvq_store (s : State) (h : HostId) (f : EvQueue → EvQueue) :
    (s.onEvq h f).store = s.store := rfl

/-! #### State.onRsc -/

@[simp] theorem State.onRsc_ports (s : State) (f : Rsc → Rsc) : (s.onRsc f).ports = s.ports := rfl

@[simp] theorem State.onRsc_fre (s : State) (f : Rsc → Rsc) : (s.onRsc f).fre = s.fre := rfl

@[simp] theorem State.onRsc_ws (s : State) (f : Rsc → Rsc) : (s.onRsc f).ws = s.ws := rfl

@[simp] theorem State.onRsc_evu (s : State) (f : Rsc → Rsc) : (s.onRsc f).evu = s.evu := rfl

@[simp] theorem State.onRsc_pending (s : State) (f : Rsc → Rsc) : (s.onRsc f).pending = s.pending := rfl

@[simp] theorem State.onRsc_port (s : State) (f : Rsc → Rsc) : (s.onRsc f).port = s.port := rfl

@[simp] theorem State.onRsc_store (s : State) (f : Rsc → Rsc) : (s.onRsc f).store = s.store := rfl

@[simp] theorem State.onRsc_evq (s : State) (f : Rsc → Rsc) : (s.onRsc f).evq = s.evq := rfl

/-! #### State.onFre -/

@[simp] theorem State.onFre_ports (s : State) (f : Fre → Fre) : (s.onFre f).ports = s.ports := rfl

@[simp] theorem State.onFre_rsc (s : State) (f : Fre → Fre) : (s.onFre f).rsc = s.rsc := rfl

@[simp] theorem State.onFre_ws (s : State) (f : Fre → Fre) : (s.onFre f).ws = s.ws := rfl

@[simp] theorem State.onFre_evu (s : State) (f : Fre → Fre) : (s.onFre f).evu = s.evu := rfl

@[simp] theorem State.onFre_pending (s : State) (f : Fre → Fre) : (s.onFre f).pending = s.pending := rfl

@[simp] theorem State.onFre_port (s : State) (f : Fre → Fre) : (s.onFre f).port = s.port := rfl

@[simp] theorem State.onFre_store (s : State) (f : Fre → Fre) : (s.onFre f).store = s.store := rfl

@[simp] theorem State.onFre_evq (s : State) (f : Fre → Fre) : (s.onFre f).evq = s.evq := rfl

/-! #### State.onQueues -/

@[simp] theorem State.onQueues_ports (s : State) (f : List TxQueue → List TxQueue) :
    (s.onQueues f).ports = s.ports := rfl

@[simp] theorem State.onQueues_rsc (s : State) (f : List TxQueue → List TxQueue) :
    (s.onQueues f).rsc = s.rsc := rfl

@[simp] theorem State.onQueues_fre (s : State) (f : List TxQueue → List TxQueue) :
    (s.onQueues f).fre = s.fre := rfl

@[simp] theorem State.onQueues_evu (s : State) (f : List TxQueue → List TxQueue) :
    (s.onQueues f).evu = s.evu := rfl

@[simp] theorem State.onQueues_pending (s : State) (f : List TxQueue → List TxQueue) :
    (s.onQueues f).pending = s.pending := rfl

@[simp] theorem State.onQueues_port (s : State) (f : List TxQueue → List TxQueue) :
    (s.onQueues f).port = s.port := rfl

@[simp] theorem State.onQueues_evq (s : State) (f : List TxQueue → List TxQueue) :
    (s.onQueues f).evq = s.evq := rfl

/-! #### State.refreshAtn -/

@[simp] theorem State.refreshAtn_rsc (s : State) : (s.refreshAtn).rsc = s.rsc := rfl

@[simp] theorem State.refreshAtn_fre (s : State) : (s.refreshAtn).fre = s.fre := rfl

@[simp] theorem State.refreshAtn_ws (s : State) : (s.refreshAtn).ws = s.ws := rfl

@[simp] theorem State.refreshAtn_evu (s : State) : (s.refreshAtn).evu = s.evu := rfl

@[simp] theorem State.refreshAtn_pending (s : State) : (s.refreshAtn).pending = s.pending := rfl

@[simp] theorem State.refreshAtn_store (s : State) : (s.refreshAtn).store = s.store := rfl

@[simp] theorem State.refreshAtn_evq (s : State) : (s.refreshAtn).evq = s.evq := rfl

/-! #### markServed -/

@[simp] theorem markServed_rsc (o : Owner) (h : HostId) (s : State) :
    (markServed o h s).rsc = s.rsc := rfl

@[simp] theorem markServed_fre (o : Owner) (h : HostId) (s : State) :
    (markServed o h s).fre = s.fre := rfl

@[simp] theorem markServed_ws (o : Owner) (h : HostId) (s : State) : (markServed o h s).ws = s.ws := rfl

@[simp] theorem markServed_evu (o : Owner) (h : HostId) (s : State) :
    (markServed o h s).evu = s.evu := rfl

@[simp] theorem markServed_pending (o : Owner) (h : HostId) (s : State) :
    (markServed o h s).pending = s.pending := rfl

@[simp] theorem markServed_store (o : Owner) (h : HostId) (s : State) :
    (markServed o h s).store = s.store := rfl

@[simp] theorem markServed_evq (o : Owner) (h : HostId) (s : State) :
    (markServed o h s).evq = s.evq := rfl

/-! #### charge -/

@[simp] theorem charge_ports (h : HostId) (n : Nat) (s : State) : (charge h n s).ports = s.ports := rfl

@[simp] theorem charge_rsc (h : HostId) (n : Nat) (s : State) : (charge h n s).rsc = s.rsc := rfl

@[simp] theorem charge_fre (h : HostId) (n : Nat) (s : State) : (charge h n s).fre = s.fre := rfl

@[simp] theorem charge_evu (h : HostId) (n : Nat) (s : State) : (charge h n s).evu = s.evu := rfl

@[simp] theorem charge_pending (h : HostId) (n : Nat) (s : State) :
    (charge h n s).pending = s.pending := rfl

@[simp] theorem charge_port (h : HostId) (n : Nat) (s : State) : (charge h n s).port = s.port := rfl

@[simp] theorem charge_evq (h : HostId) (n : Nat) (s : State) : (charge h n s).evq = s.evq := rfl

/-! #### giveBack -/

@[simp] theorem giveBack_ports (h : HostId) (n : Nat) (s : State) :
    (giveBack h n s).ports = s.ports := rfl

@[simp] theorem giveBack_rsc (h : HostId) (n : Nat) (s : State) : (giveBack h n s).rsc = s.rsc := rfl

@[simp] theorem giveBack_fre (h : HostId) (n : Nat) (s : State) : (giveBack h n s).fre = s.fre := rfl

@[simp] theorem giveBack_evu (h : HostId) (n : Nat) (s : State) : (giveBack h n s).evu = s.evu := rfl

@[simp] theorem giveBack_pending (h : HostId) (n : Nat) (s : State) :
    (giveBack h n s).pending = s.pending := rfl

@[simp] theorem giveBack_port (h : HostId) (n : Nat) (s : State) : (giveBack h n s).port = s.port := rfl

@[simp] theorem giveBack_evq (h : HostId) (n : Nat) (s : State) : (giveBack h n s).evq = s.evq := rfl

/-! #### askWs -/

@[simp] theorem askWs_ports (asks : List QueueAsk) (s : State) : (askWs asks s).ports = s.ports := rfl

@[simp] theorem askWs_rsc (asks : List QueueAsk) (s : State) : (askWs asks s).rsc = s.rsc := rfl

@[simp] theorem askWs_fre (asks : List QueueAsk) (s : State) : (askWs asks s).fre = s.fre := rfl

@[simp] theorem askWs_evu (asks : List QueueAsk) (s : State) : (askWs asks s).evu = s.evu := rfl

@[simp] theorem askWs_pending (asks : List QueueAsk) (s : State) :
    (askWs asks s).pending = s.pending := rfl

@[simp] theorem askWs_port (asks : List QueueAsk) (s : State) : (askWs asks s).port = s.port := rfl

@[simp] theorem askWs_evq (asks : List QueueAsk) (s : State) : (askWs asks s).evq = s.evq := rfl

/-! #### toWs -/

@[simp] theorem toWs_ports (w : FreWork) (s : State) : (toWs w s).ports = s.ports := rfl

@[simp] theorem toWs_rsc (w : FreWork) (s : State) : (toWs w s).rsc = s.rsc := rfl

@[simp] theorem toWs_fre (w : FreWork) (s : State) : (toWs w s).fre = s.fre := rfl

@[simp] theorem toWs_evu (w : FreWork) (s : State) : (toWs w s).evu = s.evu := rfl

@[simp] theorem toWs_pending (w : FreWork) (s : State) : (toWs w s).pending = s.pending := rfl

@[simp] theorem toWs_port (w : FreWork) (s : State) : (toWs w s).port = s.port := rfl

@[simp] theorem toWs_evq (w : FreWork) (s : State) : (toWs w s).evq = s.evq := rfl

/-! #### dropAsk -/

@[simp] theorem dropAsk_ports (a : QueueAsk) (s : State) : (dropAsk a s).ports = s.ports := rfl

@[simp] theorem dropAsk_rsc (a : QueueAsk) (s : State) : (dropAsk a s).rsc = s.rsc := rfl

@[simp] theorem dropAsk_fre (a : QueueAsk) (s : State) : (dropAsk a s).fre = s.fre := rfl

@[simp] theorem dropAsk_evu (a : QueueAsk) (s : State) : (dropAsk a s).evu = s.evu := rfl

@[simp] theorem dropAsk_pending (a : QueueAsk) (s : State) : (dropAsk a s).pending = s.pending := rfl

@[simp] theorem dropAsk_port (a : QueueAsk) (s : State) : (dropAsk a s).port = s.port := rfl

@[simp] theorem dropAsk_evq (a : QueueAsk) (s : State) : (dropAsk a s).evq = s.evq := rfl

/-! #### eventsFromRsc -/

@[simp] theorem eventsFromRsc_ports (es : List (HostId × Event)) (s : State) :
    (eventsFromRsc es s).ports = s.ports := rfl

@[simp] theorem eventsFromRsc_rsc (es : List (HostId × Event)) (s : State) :
    (eventsFromRsc es s).rsc = s.rsc := rfl

@[simp] theorem eventsFromRsc_fre (es : List (HostId × Event)) (s : State) :
    (eventsFromRsc es s).fre = s.fre := rfl

@[simp] theorem eventsFromRsc_ws (es : List (HostId × Event)) (s : State) :
    (eventsFromRsc es s).ws = s.ws := rfl

@[simp] theorem eventsFromRsc_pending (es : List (HostId × Event)) (s : State) :
    (eventsFromRsc es s).pending = s.pending := rfl

@[simp] theorem eventsFromRsc_port (es : List (HostId × Event)) (s : State) :
    (eventsFromRsc es s).port = s.port := rfl

@[simp] theorem eventsFromRsc_store (es : List (HostId × Event)) (s : State) :
    (eventsFromRsc es s).store = s.store := rfl

/-! #### eventFromTransmit -/

@[simp] theorem eventFromTransmit_ports (h : HostId) (e : Event) (s : State) :
    (eventFromTransmit h e s).ports = s.ports := rfl

@[simp] theorem eventFromTransmit_rsc (h : HostId) (e : Event) (s : State) :
    (eventFromTransmit h e s).rsc = s.rsc := rfl

@[simp] theorem eventFromTransmit_fre (h : HostId) (e : Event) (s : State) :
    (eventFromTransmit h e s).fre = s.fre := rfl

@[simp] theorem eventFromTransmit_ws (h : HostId) (e : Event) (s : State) :
    (eventFromTransmit h e s).ws = s.ws := rfl

@[simp] theorem eventFromTransmit_pending (h : HostId) (e : Event) (s : State) :
    (eventFromTransmit h e s).pending = s.pending := rfl

@[simp] theorem eventFromTransmit_port (h : HostId) (e : Event) (s : State) :
    (eventFromTransmit h e s).port = s.port := rfl

@[simp] theorem eventFromTransmit_store (h : HostId) (e : Event) (s : State) :
    (eventFromTransmit h e s).store = s.store := rfl

/-! #### eventFromWs -/

@[simp] theorem eventFromWs_ports (h : HostId) (e : Event) (s : State) :
    (eventFromWs h e s).ports = s.ports := rfl

@[simp] theorem eventFromWs_rsc (h : HostId) (e : Event) (s : State) :
    (eventFromWs h e s).rsc = s.rsc := rfl

@[simp] theorem eventFromWs_fre (h : HostId) (e : Event) (s : State) :
    (eventFromWs h e s).fre = s.fre := rfl

@[simp] theorem eventFromWs_ws (h : HostId) (e : Event) (s : State) :
    (eventFromWs h e s).ws = s.ws := rfl

@[simp] theorem eventFromWs_pending (h : HostId) (e : Event) (s : State) :
    (eventFromWs h e s).pending = s.pending := rfl

@[simp] theorem eventFromWs_port (h : HostId) (e : Event) (s : State) :
    (eventFromWs h e s).port = s.port := rfl

@[simp] theorem eventFromWs_store (h : HostId) (e : Event) (s : State) :
    (eventFromWs h e s).store = s.store := rfl

/-! #### engineEvents -/

@[simp] theorem engineEvents_ports (st : EngineState) (k : Word) (s : State) :
    (engineEvents st k s).ports = s.ports := rfl

@[simp] theorem engineEvents_rsc (st : EngineState) (k : Word) (s : State) :
    (engineEvents st k s).rsc = s.rsc := rfl

@[simp] theorem engineEvents_fre (st : EngineState) (k : Word) (s : State) :
    (engineEvents st k s).fre = s.fre := rfl

@[simp] theorem engineEvents_ws (st : EngineState) (k : Word) (s : State) :
    (engineEvents st k s).ws = s.ws := rfl

@[simp] theorem engineEvents_pending (st : EngineState) (k : Word) (s : State) :
    (engineEvents st k s).pending = s.pending := rfl

@[simp] theorem engineEvents_port (st : EngineState) (k : Word) (s : State) :
    (engineEvents st k s).port = s.port := rfl

@[simp] theorem engineEvents_store (st : EngineState) (k : Word) (s : State) :
    (engineEvents st k s).store = s.store := rfl

end Sys2Proof.Machine
end

