-- ==== Sys2Proof/Laws/Ops.lean ====
section
/-! SUPPORT. What each shared operation can do, said once: outcomes, requests and responses, taking a request, the
arbiter, cells and transmit queues, reports of a session end, ENGINE events and votes. -/

namespace Sys2Proof.Machine

open Sys2Proof.Safety

/-! ### Outcomes and ATN -/

/-- ATN does not enter its own condition. -/
@[simp] theorem attentionNow_refreshAtn (s : State) (h : HostId) :
    attentionNow s.refreshAtn h = attentionNow s h := by
  simp [attentionNow, State.refreshAtn_port]

@[simp] theorem refreshAtn_atn (s : State) (h : HostId) :
    (s.refreshAtn.port h).atn = attentionNow s h := by simp [State.refreshAtn_port]

@[simp] theorem portView_refreshAtn (s : State) (h : HostId) :
    portView (s.refreshAtn.port h) = portView (s.port h) := by simp [State.refreshAtn_port, portView]

theorem refreshAtn_atnLaw (s : State) : AtnLaw s.refreshAtn := fun h => by simp

/-- A step that can be taken answers its effect with the ATN outputs brought up to date. -/
theorem settle_some {s u : State} {o : Option State} (e : o = some u) : settle s o = .next u.refreshAtn := by
  rw [e]; rfl

theorem settle_none {s : State} {o : Option State} (e : o = none) : settle s o = .next s := by rw [e]; rfl

/-- Everything a settled step can answer: the effect of a step taken, or the state itself. -/
theorem settle_next {s t : State} {o : Option State} (e : settle s o = .next t) :
    (∃ u, o = some u ∧ t = u.refreshAtn) ∨ (o = none ∧ t = s) := by
  cases o with
  | none => exact .inr ⟨rfl, by simpa [settle] using e.symm⟩
  | some u => exact .inl ⟨u, rfl, by simpa [settle] using e.symm⟩

theorem settle_total (s : State) (o : Option State) : ∃ t, settle s o = .next t := by cases o <;> exact ⟨_, rfl⟩

/-! ### Ports -/

theorem portView_state {p q : Port} (e : portView p = portView q) : p.state = q.state := congrArg (·.state) e

theorem portView_mask {p q : Port} (e : portView p = portView q) : p.mask = q.mask := congrArg (·.mask) e

theorem portView_held {p q : Port} (e : portView p = portView q) : p.held = q.held := congrArg (·.held) e

theorem portView_toReport {p q : Port} (e : portView p = portView q) : p.toReport = q.toReport :=
  congrArg (·.toReport) e

theorem portView_inProgress {p q : Port} (e : portView p = portView q) :
    p.inProgress.map (fun r => { r with passed := [] }) = q.inProgress.map (fun r => { r with passed := [] }) :=
  congrArg (·.inProgress) e

/-- A change at port h keeps the other ports. -/
theorem onPort_othersKept (s : State) (h : HostId) (f : Port → Port) : OthersKept s (s.onPort h f) h :=
  fun _ n => by rw [State.onPort_port_ne s f n]

/-! ### Requests and responses -/

/-- The request in progress of a kind is what `Asked` names. -/
theorem requestOf_some {s : State} {h : HostId} {k : Kind} {r : Request} :
    requestOf s h k = some r ↔ Asked s h k r := by
  unfold requestOf Asked
  cases (s.port h).inProgress with
  | none => simp
  | some q =>
    by_cases e : q.kind = k
    · simp only [e, if_true, Option.some.injEq]
      exact ⟨fun x => ⟨x, x ▸ e⟩, fun x => x.1⟩
    · simp only [e, if_false, Option.some.injEq, reduceCtorEq, false_iff]
      exact fun x => e (x.1 ▸ x.2)

section
variable (h : HostId) (res : Result) (p : List Byte) (s : State)

@[simp] theorem answer_rsc : (answer h res p s).rsc = s.rsc := by unfold answer; split <;> rfl
@[simp] theorem answer_fre : (answer h res p s).fre = s.fre := by unfold answer; split <;> rfl
@[simp] theorem answer_ws : (answer h res p s).ws = s.ws := by unfold answer; split <;> rfl
@[simp] theorem answer_evu : (answer h res p s).evu = s.evu := by unfold answer; split <;> rfl
@[simp] theorem answer_pending : (answer h res p s).pending = s.pending := by unfold answer; split <;> rfl
@[simp] theorem answer_store (g : HostId) : (answer h res p s).store g = s.store g := by
  simp [State.store]
@[simp] theorem answer_evq (g : HostId) : (answer h res p s).evq g = s.evq g := by simp [State.evq]

theorem answer_port_ne {g : HostId} (n : g ≠ h) : (answer h res p s).port g = s.port g := by
  unfold answer
  split
  · exact State.onPort_port_ne _ _ n
  · rfl

end

/-- The port that answers ends its request and holds the response (R165). -/
theorem answer_port_self {h : HostId} {res : Result} {p : List Byte} {s : State} {r : Request}
    (e : (s.port h).inProgress = some r) :
    (answer h res p s).port h =
      { s.port h with inProgress := none, held := some ⟨r.kind.code, r.tag, res, p⟩ } := by
  simp [answer, e]

/-- An answer given in a state whose ports look as before is the reply the statements speak of. -/
theorem replied_of_answer {s u : State} {h : HostId} {r : Request} {res : Result} {p : List Byte}
    (k : PortsKept s u) (e : (s.port h).inProgress = some r) :
    Replied s (answer h res p u).refreshAtn h r res p := by
  have v := k h
  have w := portView_inProgress v
  rw [e] at w
  cases x : (u.port h).inProgress with
  | none => simp [x] at w
  | some q =>
    simp only [x, Option.map_some, Option.some.injEq] at w
    have wk : q.kind = r.kind := congrArg (·.kind) w
    have wt : q.tag = r.tag := congrArg (·.tag) w
    refine ⟨?_, fun g n => ?_⟩
    · rw [portView_refreshAtn, answer_port_self x, ← v]
      simp [portView, wk, wt]
    · rw [portView_refreshAtn, answer_port_ne h res p u n]
      exact k g

@[simp] theorem portsKept_refl (s : State) : PortsKept s s := fun _ => rfl

/-! ### Taking a request -/

/-- The requests that wait see the service; the ports look as before. -/
theorem markServed_portsKept (o : Owner) (h : HostId) (s : State) : PortsKept s (markServed o h s) := by
  intro g
  simp only [markServed, State.port, Quad.get_mapHosts]
  split
  · simp [portView, Function.comp_def]
  · rfl

@[simp] theorem markServed_view (o : Owner) (h : HostId) (s : State) (g : HostId) :
    portView ((markServed o h s).port g) = portView (s.port g) := markServed_portsKept o h s g

@[simp] theorem markServed_state (o : Owner) (h : HostId) (s : State) (g : HostId) :
    ((markServed o h s).port g).state = (s.port g).state := portView_state (markServed_view o h s g)

/-- The port served keeps its request as it is. -/
@[simp] theorem markServed_self (o : Owner) (h : HostId) (s : State) :
    (markServed o h s).port h = s.port h := by
  simp [markServed, State.port]

/-- The WS or the FRE takes a request: it is the port's, of the kind, the fairness law lets it be taken, and the
requests that wait have seen it. -/
theorem takeFair_some {k : Kind} {h : HostId} {s t : State} {r : Request} :
    takeFair k h s = some (r, t) ↔ Asked s h k r ∧ mayTake s k.owner h = true ∧ t = markServed k.owner h s := by
  unfold takeFair
  cases e : requestOf s h k with
  | none =>
    simp only [reduceCtorEq, false_iff]
    intro x
    rw [requestOf_some.mpr x.1] at e
    cases e
  | some q =>
    have a := requestOf_some.mp e
    by_cases m : mayTake s k.owner h = true
    · simp only [m, if_true, Option.some.injEq, Prod.mk.injEq]
      constructor
      · rintro ⟨rfl, rfl⟩; exact ⟨a, trivial, rfl⟩
      · rintro ⟨x, _, rfl⟩
        exact ⟨Option.some.inj (e.symm.trans (requestOf_some.mpr x)), rfl⟩
    · simp [m]

/-- The RSC takes the request its arbiter grants, with the pointer moved to the port (R21). -/
theorem takeGranted_some {k : Kind} {h : HostId} {s t : State} {r : Request} :
    takeGranted k s = some (h, r, t) ↔
      Chosen s h ∧ Asked s h k r ∧ t = s.onRsc fun c => { c with pointer := h } := by
  unfold takeGranted Chosen
  by_cases f : rscFree s = true
  · simp only [f, if_true, true_and]
    cases g : granted s with
    | none => simp
    | some p =>
      simp only [Option.some.injEq]
      cases e : requestOf s p k with
      | none =>
        simp only [reduceCtorEq, false_iff]
        rintro ⟨rfl, x, _⟩
        rw [requestOf_some.mpr x] at e
        cases e
      | some q =>
        have a := requestOf_some.mp e
        simp only [Option.some.injEq, Prod.mk.injEq]
        constructor
        · rintro ⟨rfl, rfl, rfl⟩; exact ⟨rfl, a, rfl⟩
        · rintro ⟨rfl, x, rfl⟩
          exact ⟨rfl, Option.some.inj (e.symm.trans (requestOf_some.mpr x)), rfl⟩
  · simp [f]

/-- The port the arbiter chooses has a request that waits (R21). -/
theorem granted_waits {s : State} {h : HostId} (e : granted s = some h) : waitsAt s .rsc h = true :=
  List.find?_some e

/-- The arbiter looks at every port. -/
theorem mem_arbiterOrder (p h : HostId) : h ∈ arbiterOrder p := by cases p <;> cases h <;> decide

/-- The arbiter chooses a port whenever one waits (R21). -/
theorem granted_isSome {s : State} {g : HostId} (w : waitsAt s .rsc g = true) : ∃ h, granted s = some h := by
  cases e : granted s with
  | some h => exact ⟨h, rfl⟩
  | none => exact absurd w (List.find?_eq_none.mp e g (mem_arbiterOrder _ _))

/-! ### Cells and transmit queues -/

@[simp] theorem charge_store_self (h : HostId) (n : Nat) (s : State) :
    (charge h n s).store h = { s.store h with held := (s.store h).held + n } := by
  simp [charge, State.store, State.onStore]

theorem charge_store_ne {h g : HostId} (n : Nat) (s : State) (d : g ≠ h) :
    (charge h n s).store g = s.store g := Quad.get_set_ne _ _ d

@[simp] theorem charge_free (h : HostId) (n : Nat) (s : State) : (charge h n s).ws.free = s.ws.free - n := rfl

@[simp] theorem charge_queues (h : HostId) (n : Nat) (s : State) : (charge h n s).ws.queues = s.ws.queues := rfl

@[simp] theorem charge_asks (h : HostId) (n : Nat) (s : State) : (charge h n s).ws.asks = s.ws.asks := rfl

@[simp] theorem charge_fromFre (h : HostId) (n : Nat) (s : State) : (charge h n s).ws.fromFre = s.ws.fromFre := rfl

@[simp] theorem giveBack_store_self (h : HostId) (n : Nat) (s : State) :
    (giveBack h n s).store h = { s.store h with held := (s.store h).held - n } := by
  simp [giveBack, State.store, State.onStore]

theorem giveBack_store_ne {h g : HostId} (n : Nat) (s : State) (d : g ≠ h) :
    (giveBack h n s).store g = s.store g := Quad.get_set_ne _ _ d

@[simp] theorem giveBack_free (h : HostId) (n : Nat) (s : State) : (giveBack h n s).ws.free = s.ws.free + n := rfl

@[simp] theorem giveBack_queues (h : HostId) (n : Nat) (s : State) : (giveBack h n s).ws.queues = s.ws.queues := rfl

@[simp] theorem giveBack_asks (h : HostId) (n : Nat) (s : State) : (giveBack h n s).ws.asks = s.ws.asks := rfl

@[simp] theorem giveBack_fromFre (h : HostId) (n : Nat) (s : State) :
    (giveBack h n s).ws.fromFre = s.ws.fromFre := rfl

/-- The first element that meets the test, where there is one, is the one changed. -/
theorem changeFirst_append {α : Type} {p : α → Bool} {f : α → α} {a b : List α} {x : α}
    (no : ∀ y ∈ a, p y = false) (yes : p x = true) : changeFirst p f (a ++ x :: b) = a ++ f x :: b := by
  induction a with
  | nil => simp [changeFirst, yes]
  | cons y ys ih =>
    have ny := no y (by simp)
    have := ih fun z hz => no z (by simp [hz])
    simp [changeFirst, ny, this]

/-- Where no element meets the test nothing changes. -/
theorem changeFirst_none {α : Type} {p : α → Bool} {f : α → α} {a : List α} (no : ∀ y ∈ a, p y = false) :
    changeFirst p f a = a := by
  induction a with
  | nil => rfl
  | cons y ys ih =>
    have ny := no y (by simp)
    have := ih fun z hz => no z (by simp [hz])
    simp [changeFirst, ny, this]

/-- A list with an element that meets the test, cut at the first. -/
theorem exists_first {α : Type} {p : α → Bool} {l : List α} {x : α} (e : l.find? p = some x) :
    ∃ a b, l = a ++ x :: b ∧ p x = true ∧ ∀ y ∈ a, p y = false := by
  obtain ⟨px, a, b, rfl, na⟩ := List.find?_eq_some_iff_append.mp e
  exact ⟨a, b, rfl, px, fun y hy => by simpa using na y hy⟩

/-- The entries of a host, queue by queue. -/
@[simp] theorem txEntries_append (a b : List TxQueue) (h : HostId) :
    txEntries (a ++ b) h = txEntries a h + txEntries b h := by simp [txEntries]

@[simp] theorem txEntries_cons (q : TxQueue) (a : List TxQueue) (h : HostId) :
    txEntries (q :: a) h = (if q.owner = h then q.entries.length else 0) + txEntries a h := by
  by_cases e : q.owner = h <;> simp [txEntries, e]

@[simp] theorem txEntries_nil (h : HostId) : txEntries [] h = 0 := rfl

/-- The entries of a record's queue are those of its first queue (there is one, where any stands). -/
theorem entriesOf_append {a b : List TxQueue} {q : TxQueue} {id : Nat} {h : HostId}
    (no : ∀ y ∈ a, y.isOf id h = false) (yes : q.isOf id h = true) :
    entriesOf (a ++ q :: b) id h = q.entries := by
  have : (a ++ q :: b).find? (TxQueue.isOf id h) = some q :=
    List.find?_eq_some_iff_append.mpr ⟨yes, a, b, rfl, fun y hy => by simp [no y hy]⟩
  simp [entriesOf, this]

/-- The queue an entry of a record stands in. -/
theorem entriesOf_cons {qs : List TxQueue} {id : Nat} {h : HostId} {e : TxEntry} {es : List TxEntry}
    (x : entriesOf qs id h = e :: es) :
    ∃ a q b, qs = a ++ q :: b ∧ q.id = id ∧ q.owner = h ∧ q.entries = e :: es ∧
      ∀ y ∈ a, y.isOf id h = false := by
  unfold entriesOf at x
  split at x
  · rename_i q f
    obtain ⟨a, b, rfl, yes, no⟩ := exists_first f
    have := of_decide_eq_true yes
    exact ⟨a, q, b, rfl, this.1, this.2, x, no⟩
  · cases x

/-- Changing the first queue of a record and owner, that one's identity kept, leaves the entries of the others. -/
theorem entriesOf_changeFirst_ne {qs : List TxQueue} {id id' : Nat} {h g : HostId} {f : TxQueue → TxQueue}
    (k : ∀ q, (f q).id = q.id ∧ (f q).owner = q.owner) (n : ¬(id' = id ∧ g = h)) :
    entriesOf (changeFirst (TxQueue.isOf id h) f qs) id' g = entriesOf qs id' g := by
  induction qs with
  | nil => rfl
  | cons q qs ih =>
    by_cases yes : q.isOf id h = true
    · have a := of_decide_eq_true yes
      have b : q.isOf id' g = false := decide_eq_false (by rintro ⟨x, y⟩; exact n ⟨x ▸ a.1, y ▸ a.2⟩)
      have c : (f q).isOf id' g = false := by simpa [TxQueue.isOf, (k q).1, (k q).2] using b
      simp [changeFirst, yes, entriesOf, b, c]
    · simp only [changeFirst, yes]
      by_cases b : q.isOf id' g = true
      · simp [entriesOf, b]
      · simpa [entriesOf, b] using ih

/-- The head entry of a record's queue is removed and its cell returned (R104). -/
theorem loadHead_eq {s : State} {id : Nat} {h : HostId} {e : TxEntry} {es : List TxEntry}
    (x : entriesOf s.ws.queues id h = e :: es) :
    loadHead id h s =
      giveBack h 1
        (s.onQueues (changeFirst (TxQueue.isOf id h) fun q => { q with entries := q.entries.tail })) := by
  simp [loadHead, x]

/-- A flush, queue by queue: the queue of that identity is emptied and its owner gets its cells back (R107). -/
theorem flushQueue_eq {s : State} {id : Nat} {a b : List TxQueue} {q : TxQueue}
    (e : s.ws.queues = a ++ q :: b) (i : q.id = id) (no : ∀ x ∈ a, x.id ≠ id) :
    flushQueue id s =
      giveBack q.owner q.entries.length (s.onQueues fun _ => a ++ { q with entries := [] } :: b) := by
  have f : s.ws.queues.find? (fun q => decide (q.id = id)) = some q :=
    e ▸ List.find?_eq_some_iff_append.mpr ⟨by simp [i], a, b, rfl, fun y hy => by simp [no y hy]⟩
  have c : changeFirst (fun q : TxQueue => decide (q.id = id)) (fun q => { q with entries := [] }) s.ws.queues =
      a ++ { q with entries := [] } :: b := by
    rw [e]; exact changeFirst_append (fun y hy => by simp [no y hy]) (by simp [i])
  simp only [flushQueue, f, State.onQueues, c]

/-- A flush of a queue that has ended does nothing (R107). -/
theorem flushQueue_ended {s : State} {id : Nat} (no : ∀ x ∈ s.ws.queues, x.id ≠ id) : flushQueue id s = s := by
  have f : s.ws.queues.find? (fun q => decide (q.id = id)) = none := by simpa using no
  simp [flushQueue, f]

/-- An ending, queue by queue: the queue of that identity is removed and its owner gets its cells back (R108). -/
theorem endQueue_eq {s : State} {id : Nat} {a b : List TxQueue} {q : TxQueue}
    (e : s.ws.queues = a ++ q :: b) (i : q.id = id) (no : ∀ x ∈ a, x.id ≠ id) :
    endQueue id s = giveBack q.owner q.entries.length (s.onQueues fun _ => a ++ b) := by
  have x : (a ++ { q with entries := [] } :: b).eraseP (fun q => decide (q.id = id)) = a ++ b := by
    rw [List.eraseP_append_right _ (fun y hy => by simp [no y hy])]
    simp [i]
  simp only [endQueue, flushQueue_eq e i no, giveBack, State.onQueues, State.onStore, x]

/-- An ending of a queue already ended does nothing (R108). -/
theorem endQueue_ended {s : State} {id : Nat} (no : ∀ x ∈ s.ws.queues, x.id ≠ id) : endQueue id s = s := by
  have x : s.ws.queues.eraseP (fun q => decide (q.id = id)) = s.ws.queues :=
    List.eraseP_of_forall_not fun y hy => by simp [no y hy]
  simp only [endQueue, flushQueue_ended no, State.onQueues, x]

/-- Entries appended to the queue that stands for a record (R121). -/
theorem appendEntries_eq {s : State} {id : Nat} {h : HostId} {es : List TxEntry}
    (e : ∃ q ∈ s.ws.queues, q.id = id ∧ q.owner = h) :
    appendEntries id h es s =
      charge h es.length
        (s.onQueues (changeFirst (TxQueue.isOf id h) fun q => { q with entries := q.entries ++ es })) := by
  obtain ⟨q, m, a, b⟩ := e
  have : s.ws.queues.any (TxQueue.isOf id h) = true :=
    List.any_eq_true.mpr ⟨q, m, by simp [TxQueue.isOf, a, b]⟩
  simp [appendEntries, this]

/-! ### Session ends, events and votes -/

section
variable (h : HostId) (c : Owners → Owners) (s : State)

@[simp] theorem report_rsc : (report h c s).rsc = s.rsc := by unfold report; simp only []; split <;> simp
@[simp] theorem report_fre : (report h c s).fre = s.fre := by unfold report; simp only []; split <;> simp
@[simp] theorem report_ws : (report h c s).ws = s.ws := by unfold report; simp only []; split <;> simp
@[simp] theorem report_evu : (report h c s).evu = s.evu := by unfold report; simp only []; split <;> simp
@[simp] theorem report_pending : (report h c s).pending = s.pending := by
  unfold report; simp only []; split <;> simp

theorem report_port_ne {g : HostId} (n : g ≠ h) : (report h c s).port g = s.port g := by
  unfold report
  simp only []
  split
  · rw [answer_port_ne _ _ _ _ n, State.onPort_port_ne _ _ n, State.onPort_port_ne _ _ n]
  · rw [State.onPort_port_ne _ _ n]

/-- An owner's report: the port as the statements describe it (R170). -/
theorem report_port_self : (report h c s).port h = reportedPort (s.port h) (c (s.port h).toReport) := by
  unfold report reportedPort
  simp only [State.onPort_port_self]
  cases e : (c (s.port h).toReport).isEmpty with
  | false => simp
  | true =>
    cases x : (s.port h).inProgress with
    | none => simp [answer, x]
    | some r => simp [answer, x]

end

/-- A report in a state whose ports are as before is the report the statements speak of. -/
theorem reported_of_report {s u : State} {h : HostId} (c : Owners → Owners) (k : ∀ g, u.port g = s.port g) :
    Reported s (report h c u).refreshAtn h (c (s.port h).toReport) := by
  refine ⟨?_, fun g n => ?_⟩
  · rw [portView_refreshAtn, report_port_self, k]
    unfold reportedPort portView
    cases (c (s.port h).toReport).isEmpty with
    | false => simp
    | true => cases (s.port h).inProgress <;> simp
  · rw [portView_refreshAtn, report_port_ne _ _ _ n, k]

/-- The ENGINE events of a change, as the statements write them (R98). -/
theorem engineEvents_evu (st : EngineState) (k : Word) (s : State) :
    (engineEvents st k s).evu = { s.evu with fromFre := s.evu.fromFre ++ engineCopies s st k } := rfl

theorem engineCopies_congr {s t : State} (k : ∀ g, (s.port g).state = (t.port g).state) (st : EngineState)
    (w : Word) : engineCopies s st w = engineCopies t st w := by simp [engineCopies, k]

section
variable (s : State)

@[simp] theorem votesRaised_ports : (votesRaised s).ports = s.ports := by
  unfold votesRaised; split <;> first | rfl | (split <;> rfl)
@[simp] theorem votesRaised_rsc : (votesRaised s).rsc = s.rsc := by
  unfold votesRaised; split <;> first | rfl | (split <;> rfl)
@[simp] theorem votesRaised_ws : (votesRaised s).ws = s.ws := by
  unfold votesRaised; split <;> first | rfl | (split <;> rfl)
@[simp] theorem votesRaised_pending : (votesRaised s).pending = s.pending := by
  unfold votesRaised; split <;> first | rfl | (split <;> rfl)
@[simp] theorem votesEmptied_ports : (votesEmptied s).ports = s.ports := by
  unfold votesEmptied; split <;> first | rfl | (split <;> rfl)
@[simp] theorem votesEmptied_rsc : (votesEmptied s).rsc = s.rsc := by
  unfold votesEmptied; split <;> first | rfl | (split <;> rfl)
@[simp] theorem votesEmptied_ws : (votesEmptied s).ws = s.ws := by
  unfold votesEmptied; split <;> first | rfl | (split <;> rfl)
@[simp] theorem votesEmptied_pending : (votesEmptied s).pending = s.pending := by
  unfold votesEmptied; split <;> first | rfl | (split <;> rfl)

variable (h : HostId)

@[simp] theorem addVote_ports : (addVote h s).ports = s.ports := by unfold addVote; simp only []; split <;> simp
@[simp] theorem addVote_rsc : (addVote h s).rsc = s.rsc := by unfold addVote; simp only []; split <;> simp
@[simp] theorem addVote_ws : (addVote h s).ws = s.ws := by unfold addVote; simp only []; split <;> simp
@[simp] theorem addVote_pending : (addVote h s).pending = s.pending := by
  unfold addVote; simp only []; split <;> simp
@[simp] theorem removeVote_ports : (removeVote h s).ports = s.ports := by
  unfold removeVote; simp only []; split <;> simp
@[simp] theorem removeVote_rsc : (removeVote h s).rsc = s.rsc := by unfold removeVote; simp only []; split <;> simp
@[simp] theorem removeVote_ws : (removeVote h s).ws = s.ws := by unfold removeVote; simp only []; split <;> simp
@[simp] theorem removeVote_pending : (removeVote h s).pending = s.pending := by
  unfold removeVote; simp only []; split <;> simp

@[simp] theorem addVote_port (g : HostId) : (addVote h s).port g = s.port g := by simp [State.port]
@[simp] theorem removeVote_port (g : HostId) : (removeVote h s).port g = s.port g := by simp [State.port]

end

/-! ### The slot's work and the boundary's -/

/-- What holds the RSC: a procedure in progress, or a notice awaiting confirmation that it has taken (R44, R88). -/
theorem rscFree_iff {s : State} :
    rscFree s = true ↔ s.rsc.proc = none ∧ ∀ k b, s.rsc.awaiting ≠ some (.worked k b) := by
  unfold rscFree Rsc.holds
  rw [Bool.and_eq_true, Option.isNone_iff_eq_none]
  refine and_congr_right fun _ => ?_
  split
  · rename_i k b e
    simp [e]
  · rename_i k e
    simp [e]
  · rename_i e
    simp [e]

/-- With no notice outstanding at the RSC the map of the frame in progress is the active slot map (R90). -/
theorem frameMap_quiet {s : State} (q : rscQuiet s = true) : frameMap s = (s.rsc.map, s.rsc.records) := by
  simp only [rscQuiet, Bool.and_eq_true, List.isEmpty_iff, Option.isNone_iff_eq_none] at q
  simp only [frameMap, q.1, q.2, List.foldl_nil]

/-- With one notice outstanding it is the map that the notice's procedure comes to (R90, R183). -/
theorem frameMap_notice {s : State} {k : Word} (p : s.rsc.proc = none) (n : s.rsc.notices = [k]) :
    frameMap s =
      ((runProcedure k s.ws.queues s.rsc.records).map, (runProcedure k s.ws.queues s.rsc.records).records) := by
  simp only [frameMap, p, n, List.foldl_cons, List.foldl_nil]

/-- Who is sent a TALKER_CHANGED, and that it is the one of the slot, the new talker and the frame (R45). -/
theorem mem_talkerChanged {k : Word} {ls : List ListenerHost} {slot : Nat} {owner : HostId}
    {talker : Option HostId} {g : HostId} {e : Event} :
    (g, e) ∈ talkerChanged k ls slot owner talker ↔
      e = ⟨.talkerChanged slot talker, frameField k⟩ ∧
        ⟨slot, g⟩ ∈ ls ∧ g ≠ owner := by
  have every : g ∈ hostList := by cases g <;> decide
  simp only [talkerChanged, List.mem_map, List.mem_filter, decide_eq_true_eq, Prod.mk.injEq]
  constructor
  · rintro ⟨h, ⟨-, m, x⟩, rfl, rfl⟩
    exact ⟨rfl, m, x⟩
  · rintro ⟨rfl, m, x⟩
    exact ⟨g, ⟨every, m, x⟩, rfl, rfl⟩

/-- A loss notice outstanding after the host has been passed over does not name it, and names whom else it did (R147). -/
theorem mem_passOver_loss {h : HostId} {s : State} {hs : List HostId} :
    .loss hs ∈ (passOver h s).ws.fromFre ↔
      ∃ old, .loss old ∈ s.ws.fromFre ∧ hs = old.filter fun g => decide (g ≠ h) := by
  simp only [passOver, List.mem_map]
  constructor
  · rintro ⟨w, m, e⟩
    cases w with
    | loss old => exact ⟨old, m, (FreWork.loss.inj e).symm⟩
    | offers os => exact nomatch e
    | boundary => exact nomatch e
  · rintro ⟨old, m, rfl⟩
    exact ⟨_, m, rfl⟩

/-- Passing a host over leaves the offers outstanding (R139). -/
@[simp] theorem offersTo_passingOver (g h : HostId) (w : FreWork) :
    offersTo g (w.passingOver h) = offersTo g w := by cases w <;> rfl

section
variable (p : SlotPlan) (s : State)

/-- A slot start's decision leaves the ports, the RSC and the events alone. -/
@[simp] theorem loadHead_ports (id : Nat) (h : HostId) : (loadHead id h s).ports = s.ports := by
  unfold loadHead; split <;> simp
@[simp] theorem loadHead_rsc (id : Nat) (h : HostId) : (loadHead id h s).rsc = s.rsc := by
  unfold loadHead; split <;> simp
@[simp] theorem loadHead_fre (id : Nat) (h : HostId) : (loadHead id h s).fre = s.fre := by
  unfold loadHead; split <;> simp
@[simp] theorem loadHead_evu (id : Nat) (h : HostId) : (loadHead id h s).evu = s.evu := by
  unfold loadHead; split <;> simp
@[simp] theorem loadHead_pending (id : Nat) (h : HostId) : (loadHead id h s).pending = s.pending := by
  unfold loadHead; split <;> simp
@[simp] theorem loadHead_asks (id : Nat) (h : HostId) : (loadHead id h s).ws.asks = s.ws.asks := by
  unfold loadHead; split <;> simp
@[simp] theorem loadHead_fromFre (id : Nat) (h : HostId) : (loadHead id h s).ws.fromFre = s.ws.fromFre := by
  unfold loadHead; split <;> simp

@[simp] theorem putSlot_ports : (putSlot p s).ports = s.ports := by unfold putSlot; simp only []; split <;> simp
@[simp] theorem putSlot_rsc : (putSlot p s).rsc = s.rsc := by unfold putSlot; simp only []; split <;> simp
@[simp] theorem putSlot_evu : (putSlot p s).evu = s.evu := by unfold putSlot; simp only []; split <;> simp
@[simp] theorem putSlot_pending : (putSlot p s).pending = s.pending := by
  unfold putSlot; simp only []; split <;> simp

/-- What a slot start's decision puts on the lines. -/
@[simp] theorem putSlot_fre :
    (putSlot p s).fre =
      { s.fre with
        txWord := p.line, htxd := p.line.map (lineBit s.fre.inUse.width 0), htxen := p.line.isSome,
        account := some p.account, rxWord := none, slot0Due := false } := by
  unfold putSlot; simp only []; split <;> simp

/-- A slot start's decision takes at most the entry it loads from the WS. -/
theorem putSlot_ws :
    (putSlot p s).ws = s.ws ∧ p.load = none ∨
      ∃ id h, p.load = some (id, h) ∧ (putSlot p s).ws = (loadHead id h s).ws := by
  unfold putSlot
  cases e : p.load with
  | none => exact .inl ⟨rfl, rfl⟩
  | some x => exact .inr ⟨x.1, x.2, rfl, rfl⟩

/-- A traffic write leaves everything but the records and the transmit logic's events alone. -/
theorem writeTraffic_rest (k : Word) (t : Traffic) :
    (writeTraffic k t s).ports = s.ports ∧ (writeTraffic k t s).fre = s.fre ∧ (writeTraffic k t s).ws = s.ws ∧
      (writeTraffic k t s).pending = s.pending ∧
      (writeTraffic k t s).rsc = { s.rsc with records := (writeTraffic k t s).rsc.records } ∧
      (writeTraffic k t s).evu = { s.evu with fromTransmit := (writeTraffic k t s).evu.fromTransmit } := by
  cases t with
  | wordSent id w => exact ⟨rfl, rfl, rfl, rfl, rfl, rfl⟩
  | underrun id =>
    simp only [writeTraffic]
    split
    · split
      · split <;> exact ⟨rfl, rfl, rfl, rfl, rfl, rfl⟩
      · exact ⟨rfl, rfl, rfl, rfl, rfl, rfl⟩
    · exact ⟨rfl, rfl, rfl, rfl, rfl, rfl⟩

theorem applyTraffic_rest (k : Word) (t : Option Traffic) :
    (applyTraffic k t s).ports = s.ports ∧ (applyTraffic k t s).fre = s.fre ∧ (applyTraffic k t s).ws = s.ws ∧
      (applyTraffic k t s).pending = s.pending ∧
      (applyTraffic k t s).rsc = { s.rsc with records := (applyTraffic k t s).rsc.records } ∧
      (applyTraffic k t s).evu = { s.evu with fromTransmit := (applyTraffic k t s).evu.fromTransmit } := by
  cases t with
  | none => exact ⟨rfl, rfl, rfl, rfl, rfl, rfl⟩
  | some t => exact writeTraffic_rest s k t

end

/-- The record of an identity after a change to another record. -/
theorem recordOf_updateRec_ne {rs : List ClaimRec} {id id' : Nat} {f : ClaimRec → ClaimRec}
    (k : ∀ r, (f r).id = r.id) (n : id' ≠ id) : recordOf (updateRec id f rs) id' = recordOf rs id' := by
  induction rs with
  | nil => rfl
  | cons r rs ih =>
    simp only [recordOf, updateRec, List.map_cons, List.find?_cons] at ih ⊢
    by_cases e : r.id = id
    · have m : r.id ≠ id' := fun x => n (x ▸ e)
      simp [e, k, Ne.symm n, ih]
    · simp only [e, if_false]
      by_cases m : r.id = id' <;> simp [m, ih]

/-- The record of an identity after a change to it. -/
theorem recordOf_updateRec_self {rs : List ClaimRec} {id : Nat} {f : ClaimRec → ClaimRec}
    (k : ∀ r, (f r).id = r.id) : recordOf (updateRec id f rs) id = (recordOf rs id).map f := by
  induction rs with
  | nil => rfl
  | cons r rs ih =>
    simp only [recordOf, updateRec, List.map_cons, List.find?_cons] at ih ⊢
    by_cases e : r.id = id <;> simp [e, k, ih]

/-- A procedure put into effect (R44): the store, the map, the events and the requests. -/
theorem enact_eq (r : BoundaryResult) (s : State) :
    enact r s =
      { s with
        rsc := { s.rsc with records := r.records, map := r.map }
        evu := { s.evu with fromRsc := s.evu.fromRsc ++ r.events }
        ws := { s.ws with asks := s.ws.asks ++ r.asks } } := rfl

end Sys2Proof.Machine
end

