-- ==== Sys2Proof/Tests/Slice0.lean ====
section
/-! SUPPORT. The model's own tests: the refusals of WellFormed, single steps on small states whose results are read off
the spec (its examples and worked sequences, or its rules), and for every statement with hypotheses a witness: a
concrete state and operands that meet them all. -/

namespace Sys2Proof.Tests

open Sys2Proof.Machine Sys2Proof.Safety

/-! ### Small states -/

/-- The state a command leads to meets the test. -/
def after (o : Host.Outcome State Fault Refusal) (p : State → Bool) : Bool :=
  match o with
  | .next t => p t
  | .fault _ => false
  | .refused _ => false

/-- A request of that kind and payload, with tag 5A. -/
def req (k : Kind) (payload : List Byte) : Request := ⟨k, 0x5A#8, payload, [], HostReport.empty⟩

/-- Port h is ATTACHED, in session 1, with the mask ATTACH sets. -/
def att (h : HostId) (s : State) : State :=
  s.onPort h fun p => { p with state := .attached, session := 1#8, mask := ⟨true, true, false⟩ }

/-- Port h is ATTACHED with that request in progress. -/
def ask (h : HostId) (k : Kind) (payload : List Byte) (s : State) : State :=
  (att h s).onPort h fun p => { p with inProgress := some (req k payload) }

/-- Port H0 is in a transaction whose status byte is st. -/
def inTr (st : Byte) (s : State) : State :=
  s.onPort .h0 fun p => { p with selLow := true, framer := .receiving st, sdoLine := some (st.getLsbD 7) }

/-- Port h is DETACHING, no owner having reported. -/
def leavingPort (h : HostId) (s : State) : State :=
  (ask h .detach [] s).onPort h fun p =>
    { p with state := .detaching, mask := ⟨false, false, false⟩, toReport := ⟨true, true, true, true⟩ }

/-- A TALK record of H0 on slot 5 with fill policy PATTERN, depth 2 and lease 3. -/
def talker (st : RecState) : ClaimRec :=
  { id := 0, host := .h0, slot := 5, body := .talk ⟨.pattern, 2, true, none, 0#8, false⟩, state := st, lease := 3#16,
    remaining := if st = .pendingAdd then none else some 2#16, seq := 0#16, session := 1#8 }

/-- An unleased LISTEN record of a host on slot 5. -/
def listener (h : HostId) (id : Nat) (st : RecState) : ClaimRec :=
  { id := id, host := h, slot := 5, body := .listen, state := st, lease := 0#16, remaining := none, seq := 1#16,
    session := 1#8 }

/-- The claim store holds those records. -/
def store (rs : List ClaimRec) (s : State) : State := s.onRsc fun c => { c with records := rs, nextId := 64 }

/-- H0's transmit queue 0 holds those entries, each charged to it. -/
def queue (es : List TxEntry) (s : State) : State :=
  charge .h0 es.length (s.onQueues fun _ => [⟨0, .h0, 2, es⟩])

/-- The engine is in state st with F = 2, W = 8, G = 1 and that mode, at bit position p. -/
def engine (st : EngineState) (m : Mode) (p : Nat) (high : Bool) (s : State) : State :=
  s.onFre fun f =>
    { f with
      engine := st, fmt := ⟨2, 8, 1, .bit, m, 8, 0xA5#32⟩, inUse := ⟨2, 8, 1, .bit, m, 8, 0xA5#32⟩, bitPos := p,
      clkHigh := high, prevSync := some false, votes := ⟨st = .running ∨ st = .acquiring, false, false, false⟩ }

/-- The active slot map names record 0 as talker of that slot and record 1 as its listener. -/
def mapped (slot : Nat) (s : State) : State :=
  s.onRsc fun c => { c with map := c.map.set slot ⟨some 0, [1]⟩ }

/-- Slot 0's start is due. -/
def due (s : State) : State := s.onFre fun f => { f with slot0Due := true }

/-- The laws of a store with one record. -/
theorem recordsLaw_one {r : ClaimRec} {slots n : Nat} (a : leaseOk r) (b : r.slot < slots) (c : r.id < n) :
    RecordsLaw [r] slots n where
  talk := fun _ => ⟨List.countP_le_length, List.countP_le_length⟩
  key := fun _ _ _ => ⟨List.countP_le_length, List.countP_le_length⟩
  count := fun _ => Nat.le_trans List.countP_le_length (by simp [Config.maxClaims])
  lease := by simpa using a
  slot := by simpa using b
  unique := by simp
  below := by simpa using c

/-- The laws of an empty store. -/
theorem recordsLaw_none (slots n : Nat) : RecordsLaw [] slots n where
  talk := fun _ => ⟨Nat.zero_le _, Nat.zero_le _⟩
  key := fun _ _ _ => ⟨Nat.zero_le _, Nat.zero_le _⟩
  count := fun _ => Nat.zero_le _
  lease := by simp
  slot := by simp
  unique := by simp
  below := by simp

/-- A store law with no notice awaiting confirmation and no procedure under way. -/
theorem storeLaw_of {s : State} (a : RecordsLaw s.rsc.records s.fre.fmt.slots s.rsc.nextId)
    (b : s.rsc.awaiting = none) (c : s.rsc.proc = none) : StoreLaw s where
  store := a
  worked := by simp [b]
  proc := by simp [c]
  one := by simp [c]

/-! ### Well-formed commands: one ill-formed term for each check -/

theorem test_ill_collect_short : (Instr.collect .h0 7).wellFormed = false := by decide
theorem test_ill_frame_empty : (Instr.requestFrame .h0 [] 3).wellFormed = false := by decide
theorem test_ill_frame_collect_shape : (Instr.requestFrame .h0 [0x00#8] 0).wellFormed = false := by decide
theorem test_ill_frame_status_shape : (Instr.requestFrame .h0 [0xFF#8] 0).wellFormed = false := by decide
theorem test_ill_frame_extra_byte : (Instr.requestFrame .h0 [0x30#8] 8).wellFormed = false := by decide
theorem test_ill_query_nothing :
    (Instr.queryHost .h0 ⟨false, false, false, false⟩).wellFormed = false := by decide
theorem test_well_formed_edges :
    (Instr.collect .h0 8).wellFormed = true ∧ (Instr.requestFrame .h0 [0x01#8] 7).wellFormed = true ∧
      (Instr.queryHost .h0 ⟨false, false, false, true⟩).wellFormed = true := by decide

/-! ### Single steps -/

/-- 11, CRC example: the remainder after 0x30, 0x05, 0x00 is 0xA0. -/
theorem test_crc_example : crc8 [0x30#8] = 0x90#8 ∧ crc8 [0x30#8, 0x05#8] = 0xE2#8 ∧
    crc8 [0x30#8, 0x05#8, 0x00#8] = 0xA0#8 := by decide

set_option maxRecDepth 4000 in
/-- 11, CRC example: the frame 0x30, 0x05, 0x00, 0xA0 is RUN with tag 5. -/
theorem test_frame_run :
    after (exec (.requestFrame .h0 [0x30#8, 0x05#8, 0x00#8, 0xA0#8] 0) (inTr 0x80#8 (att .h0 State.reset)))
      (fun t => decide ((t.port .h0).inProgress = some ⟨.run, 0x05#8, [], [], HostReport.empty⟩)) = true := by decide

set_option maxRecDepth 4000 in
/-- 11, CRC example: with CRC 0xA1 it is discarded with FRAME_ERROR set. -/
theorem test_frame_bad_crc :
    after (exec (.requestFrame .h0 [0x30#8, 0x05#8, 0x00#8, 0xA1#8] 0) (inTr 0x80#8 (att .h0 State.reset)))
      (fun t => decide ((t.port .h0).inProgress = none) && (t.port .h0).frameError) = true := by decide

/-- R160: an ATTACHED port with a request in progress opens with status 0xC0. -/
theorem test_opening_status :
    after (exec (.transactionOpening .h1) (ask .h1 .run [] State.reset))
      (fun t => decide ((t.port .h1).framer = .receiving 0xC0#8)) = true := by decide

/-- R161: a status transaction of 7 bits clears no latch, of 8 bits it clears DROPPED where shown. -/
theorem test_status_seven_and_eight :
    (let s := (inTr 0x04#8 State.reset).onPort .h0 fun p => { p with dropped := true }
     after (exec (.status .h0 7) s) (fun t => (t.port .h0).dropped) &&
     after (exec (.status .h0 8) s) (fun t => !(t.port .h0).dropped)) = true := by decide

/-- R166: the response to RUN with tag 5 is 30 05 00 02 02 01 and its CRC; one bit fewer and it stays held. -/
theorem test_collect_release :
    (let s := (inTr 0x20#8 State.reset).onPort .h0 fun p =>
       { p with held := some ⟨0x30#8, 0x05#8, .ok, [0x02#8, 0x01#8]⟩ }
     after (exec (.collect .h0 64) s) (fun t => decide ((t.port .h0).held = none) &&
       decide ((t.port .h0).sdo.bytes.take 7 =
         [0x20#8, 0x30#8, 0x05#8, 0x00#8, 0x02#8, 0x02#8, 0x01#8])) &&
     after (exec (.collect .h0 63) s) (fun t => (t.port .h0).held.isSome)) = true := by decide

/-- R159, R174: SDOn carries the first bit of the status byte from the opening, is at high impedance after part reset
though SELn is still low, and after the end of a transaction. -/
theorem test_sdo_line :
    (after (exec (.transactionOpening .h0) (att .h0 State.reset)) fun t =>
      decide ((t.port .h0).sdoLine = some true) &&
      after (exec .partReset t) (fun u => decide ((u.port .h0).sdoLine = none ∧ (u.port .h0).selLow = true)) &&
      after (exec (.status .h0 8) t) fun u =>
        decide ((u.port .h0).sdoLine = none ∧ (u.port .h0).sdo = ⟨[0x80#8], []⟩)) = true := by decide

/-- R111: DETACH is not taken while an offer to the host is outstanding, and is once the WS has taken it. -/
theorem test_detach_waits_for_offers :
    (let o : Offer := ⟨.h0, 5, 1#32, 9#32, false, false⟩
     let s : State := { ask .h0 .detach [] State.reset with ws := { Ws.reset with fromFre := [.offers [o]] } }
     after (exec (.detach .h0) s) fun t =>
       decide ((t.port .h0).state = .attached) &&
       after (exec (.rxOffer .h0) t) fun u => after (exec (.detach .h0) u) fun v =>
         decide ((v.port .h0).state = .detaching ∧ (v.store .h0).held = 1)) = true := by decide

/-- R168: the first ATTACH after reset gives session 1; R175: session 255 is followed by 0. -/
theorem test_attach_session :
    (let s := State.reset.onPort .h2 fun p => { p with inProgress := some (req .attach []) }
     after (exec (.attach .h2) s) (fun t =>
       decide ((t.port .h2).held = some ⟨0x01#8, 0x5A#8, .ok, [1#8]⟩)) &&
     after (exec (.attach .h2) (s.onPort .h2 fun p => { p with session := 255#8 }))
       (fun t => decide ((t.port .h2).session = 0#8))) = true := by decide

/-- R170: the last of the four reports completes DETACH. -/
theorem test_detach_completes :
    (let s := (leavingPort .h0 State.reset).onPort .h0 fun p => { p with toReport := ⟨false, false, false, true⟩ }
     after (exec (.freSessionEnd .h0) s) (fun t => decide ((t.port .h0).state = .detached) &&
       decide ((t.port .h0).held = some ⟨0x02#8, 0x5A#8, .ok, []⟩))) = true := by decide

/-- 12, "Two hosts contend": pointer H2, stamp 70: H3's CLAIM of slot 9 is taken first and gets stamp 70. -/
theorem test_contend_first :
    (let p9 := [0x00#8, 0x00#8, 0x00#8, 0x00#8, 0x08#8, 0x00#8, 0x01#8, 0x09#8]
     let p109 := [0x00#8, 0x00#8, 0x00#8, 0x00#8, 0x08#8, 0x00#8, 0x02#8, 0x0A#8, 0x09#8]
     let s := (ask .h1 .claim p109 (ask .h3 .claim p9 State.reset)).onRsc fun c =>
       { c with pointer := .h2, seq := 70#16 }
     after (exec .claim s) fun t =>
       decide ((t.port .h3).held = some ⟨0x10#8, 0x5A#8, .ok, [0x00#8, 70#8, 1#8]⟩) &&
       after (exec .claim t) fun u =>
         decide ((u.port .h1).held = some ⟨0x10#8, 0x5A#8, .conflict, [0x01#8]⟩ ∧ u.rsc.pointer = .h1 ∧
           u.rsc.seq = 71#16)) = true := by decide

/-- 12: a PENDING_ADD talker released with DISCARD is WITHDRAWN. -/
theorem test_release_withdraws :
    after (exec .release (ask .h0 .release [0x00#8, 0x00#8, 0x01#8, 0x05#8] (store [talker .pendingAdd] State.reset)))
      (fun t => decide (t.rsc.records = [] ∧ t.ws.asks = [.ending 0] ∧
        (t.port .h0).held = some ⟨0x11#8, 0x5A#8, .ok, [0x01#8, 0x00#8]⟩)) = true := by decide

/-- 12, "Renewal races expiry": RENEW sets remaining to the lease 3; the response is RENEWED, 3. -/
theorem test_renew :
    after (exec .renew (ask .h0 .renew [0x00#8, 0x01#8, 0x05#8] (store [talker .active] State.reset)))
      (fun t => decide (t.rsc.records.map ClaimRec.remaining = [some 3#16] ∧
        (t.port .h0).held = some ⟨0x12#8, 0x5A#8, .ok, [0x01#8, 0x00#8, 0x00#8, 0x03#8]⟩)) = true := by decide

/-- R42, Table 29: an empty slot is reported with presence 0 and no listener. -/
theorem test_query_slot_empty :
    after (exec .querySlot (ask .h0 .querySlot [0x3F#8] State.reset))
      (fun t => decide ((t.port .h0).held = some ⟨0x13#8, 0x5A#8, .ok, [0x3F#8, 0x00#8, 0x00#8]⟩)) = true := by decide

/-- R78: FORMAT with F = 5 meets the record on slot 5: IN_USE, 5. -/
theorem test_format_in_use :
    after (exec (.format .h1)
      (ask .h1 .format [0x05#8, 0x08#8, 0x00#8, 0x00#8, 0x00#8, 0x00#8, 0x04#8, 0x00#8, 0x00#8, 0x00#8, 0x00#8]
        (store [talker .active] State.reset)))
      (fun t => decide ((t.port .h1).held = some ⟨0x32#8, 0x5A#8, .inUse, [0x05#8]⟩ ∧
        t.fre.fmt = Format.default)) = true := by decide

/-- 12, bring-up: RUN of H0 in leader mode: RUNNING, lead-in, votes H0, ENGINE (RUNNING, 0) queued. -/
theorem test_run_leader :
    after (exec (.run .h0) ((ask .h0 .run [] State.reset).onFre fun f =>
      { f with fmt := ⟨8, 16, 0, .bit, .leader, 4, 0#32⟩ }))
      (fun t => decide ((t.port .h0).held = some ⟨0x30#8, 0x5A#8, .ok, [EngineState.running.code, 0x01#8]⟩ ∧
        t.fre.leadIn = true ∧ t.evu.fromFre = [(.h0, ⟨.engine .running, 0#16⟩)])) = true := by decide

/-- R84: HALT in the lead-in stops the engine at once. -/
theorem test_halt_lead_in :
    after (exec (.halt .h0) ((ask .h0 .halt [] (engine .running .leader 0 false State.reset)).onFre fun f =>
      { f with leadIn := true, hbclk := some false }))
      (fun t => decide (t.fre.engine = .stopped ∧ t.fre.hbclk = none ∧ t.rsc.notices = [])) = true := by decide

/-- R99: the default format record in a QUERY_ENGINE response. -/
theorem test_query_engine :
    after (exec (.queryEngine .h3) (ask .h3 .queryEngine [] State.reset))
      (fun t => decide ((t.port .h3).held.map Response.payload =
        some [0x00#8, 0#8, 0#8, 0#8, 0#8, 0#8, 0#8, 0x00#8, 32#8, 16#8, 0#8, 0x00#8, 0x01#8, 0x00#8, 0x08#8,
          0#8, 0#8, 0#8, 0#8])) = true := by decide

/-- R112: after reset the quotas make 1024, so an increase is refused with QUOTA and pool 0. -/
theorem test_quota_no_pool :
    after (exec (.setQuota .h0) (ask .h0 .setQuota [0x01#8, 0x01#8] State.reset))
      (fun t => decide ((t.port .h0).held =
        some ⟨0x23#8, 0x5A#8, .quota, [0x01#8, 0x00#8, 0x00#8, 0x00#8, 0x00#8, 0x00#8]⟩)) = true := by decide

/-- R121: one WORD and one SILENCE fill a queue of depth 2; the third entry meets QUEUE_FULL with room 0. -/
theorem test_write_then_full :
    (let s := store [talker .active] (queue [] State.reset)
     let p := [0x05#8, 0x02#8, 0x01#8, 0#8, 0#8, 0#8, 7#8, 0x02#8, 1#8, 2#8, 3#8, 4#8]
     after (exec (.writeWords .h0) (ask .h0 .writeWords p s)) fun t =>
       decide (t.ws.queues = [⟨0, .h0, 2, [.word 7#32, .silence]⟩] ∧ (t.store .h0).held = 2 ∧
         (t.port .h0).held = some ⟨0x20#8, 0x5A#8, .ok, [0x02#8, 0x00#8]⟩) &&
       after (exec (.writeWords .h0) (ask .h0 .writeWords [0x05#8, 0x01#8, 0x02#8, 0#8, 0#8, 0#8, 0#8]
         (t.onPort .h0 fun q => { q with held := none }))) fun u =>
         decide ((u.port .h0).held = some ⟨0x20#8, 0x5A#8, .queueFull, [0x00#8]⟩)) = true := by decide

/-- 12, overflow: an offer that finds the held count equal to the quota is dropped, and the latch is set. -/
theorem test_offer_overflows :
    (let s := State.reset.onStore .h2 fun c => { c with quota := 0 }
     let o : Offer := ⟨.h2, 5, 402#32, 9#32, false, false⟩
     after (exec (.rxOffer .h2) { s with ws := { s.ws with fromFre := [.offers [o]] } }) fun t =>
       decide ((t.store .h2).latch = true ∧ (t.store .h2).drops = 1#16 ∧
         t.evu.fromWs = [(.h2, ⟨.rxOverflow, 402#16⟩)] ∧ t.ws.fromFre = [])) = true := by decide

/-- 12, overflow: the record of frame 405 carries tag 149 and GAP, and clears gap-pending. -/
theorem test_offer_gap :
    (let s := State.reset.onStore .h2 fun c => { c with gap := true }
     let o : Offer := ⟨.h2, 3, 405#32, 9#32, false, false⟩
     after (exec (.rxOffer .h2) { s with ws := { s.ws with fromFre := [.offers [o]] } }) fun t =>
       decide ((t.store .h2).rxq = [⟨3, 149#8, 9#32, false, false, true⟩] ∧ (t.store .h2).gap = false ∧
         t.ws.free = 1023)) = true := by decide

/-- 12, "Drain handover": at the boundary the expired talker's queue is flushed and ended, and the waiting one is
adopted in the same boundary; H1, a listener, hears of both changes. -/
theorem test_boundary_handover :
    (let old := { talker (.pendingRelease .drain) with remaining := some 0#16 }
     let new := { talker .pendingAdd with id := 1, host := .h3 }
     let s := (store [old, new, listener .h1 2 .active] (queue [.silence] State.reset)).onRsc fun c =>
       { c with notices := [803#32] }
     after (exec .boundaryProcedure s) fun t =>
       decide (t.ws.asks = [.flush 0, .ending 0] ∧ t.rsc.records.map ClaimRec.state = [.active, .active] ∧
         t.evu.fromRsc =
           [(.h0, ⟨.ended 5 .talk .expired, 803#16⟩), (.h1, ⟨.talkerChanged 5 none, 803#16⟩),
            (.h3, ⟨.adopted 5 .talk, 803#16⟩), (.h1, ⟨.talkerChanged 5 (some .h3), 803#16⟩)])) = true := by decide

/-- R45, Table 13: H0, listening to its own talker's slot, is not told of its end; H1 is. -/
theorem test_own_talker_is_excepted :
    (let s := store [talker (.pendingRelease .discard), listener .h0 1 .active, listener .h1 2 .pendingAdd] State.reset
     after (exec .boundaryProcedure (s.onRsc fun c => { c with notices := [9#32] })) fun t =>
       decide (t.evu.fromRsc = [(.h0, ⟨.ended 5 .talk .released, 9#16⟩), (.h1, ⟨.talkerChanged 5 none, 9#16⟩),
         (.h1, ⟨.adopted 5 .listen, 9#16⟩)])) = true := by decide

/-- R147: a loss notice outstanding at H0's session end sets nothing for H0, though H0 is ATTACHED again when it is taken,
and still sets gap-pending for H1. -/
theorem test_loss_notice_after_a_session_end :
    (let s := { leavingPort .h0 State.reset with ws := { Ws.reset with fromFre := [.loss [.h0, .h1]] } }
     after (exec (.wsSessionEnd .h0) s) fun t =>
       after (exec .lossNotice (att .h1 (att .h0 t))) fun u =>
         decide ((u.port .h0).state = .attached ∧ (u.store .h0).gap = false ∧ (u.store .h1).gap = true)) = true := by
  decide

/-- R23, R88: a session end is taken before the RSC takes a notice awaiting confirmation, and not after. -/
theorem test_notice_awaiting_confirmation_holds_when_taken :
    (let s := fun a => (store [talker .active] (leavingPort .h0 State.reset)).onRsc fun c => { c with awaiting := some a }
     after (exec (.rscSessionEnd .h0) (s (.sent 1#32)))
       (fun t => decide (t.rsc.records.map ClaimRec.state = [.pendingRelease .discard])) &&
     after (exec (.rscSessionEnd .h0) (s (.worked 1#32 ⟨[], [], [], []⟩)))
       (fun t => decide (t.rsc.records.map ClaimRec.state = [.active]))) = true := by decide

/-- R123, R126: an empty queue under PATTERN sends the idle pattern and counts one underrun, reported. -/
theorem test_slot_underrun :
    (let s := due (mapped 0 (engine .running .leader 0 true (store [{ talker .active with slot := 0 }] State.reset)))
     after (exec .slotStart s) fun t =>
       decide (t.fre.txWord = some 0xA5#32 ∧ t.fre.htxd = some true ∧
         t.evu.fromTransmit = [(.h0, ⟨.underrun 0, 0#16⟩)])) = true := by decide

/-- R133, R135: the loopback word of slot 0 is offered with SELF. -/
theorem test_slot_end_self :
    (let s := (mapped 0 (engine .running .leader 7 true
       (store [talker .active, listener .h1 1 .active] State.reset))).onFre fun f =>
       { f with account := some (.sentQueued 0x1FF#32), rpFrame := 9#32 }
     after (exec (.slotEnd false false) s) fun t =>
       decide (t.ws.fromFre = [.offers [⟨.h1, 0, 9#32, 0xFF#32, true, false⟩]])) = true := by decide

/-- 12, "Loss and regain": an early sync takes RUNNING to ACQUIRING with count 0 and slip 1. -/
theorem test_early_sync :
    after (exec (.frameSync true) (engine .running .follower 3 true State.reset))
      (fun t => decide (t.fre.engine = .acquiring ∧ t.fre.acq = some 0 ∧ t.fre.slip = 1#16 ∧
        t.ws.fromFre = [.loss []])) = true := by decide

/-- R89, R90, R183: an early sync in slot 0 after lock is a loss though the RSC has not taken the notice, and H1, whose
claim that notice adopts, is named in the loss notice. -/
theorem test_early_sync_before_the_notice_is_taken :
    (let s := (store [listener .h1 1 .pendingAdd] (engine .running .follower 3 true State.reset)).onRsc fun c =>
       { c with notices := [1#32] }
     after (exec (.frameSync true) s) fun t =>
       decide (t.fre.engine = .acquiring ∧ t.fre.acq = some 0 ∧ t.rsc.notices = [1#32] ∧
         t.ws.fromFre = [.loss [.h1]])) = true := by decide

/-- R85, R86: with N = 17 the recognition whose count comes to 17 locks. -/
theorem test_lock :
    after (exec (.frameSync true) ((engine .acquiring .follower 0 true State.reset).onFre fun f =>
      { f with acq := some 16 }))
      (fun t => decide (t.fre.engine = .running ∧ t.fre.frame = 1#32 ∧ t.rsc.notices = [1#32])) = true := by decide

/-- R152: an event for a host that is not ATTACHED is discarded. -/
theorem test_event_discarded :
    after (exec (.eventTaken .ws .h0) { State.reset with evu := { Evu.reset with fromWs := [(.h0, ⟨.rxOverflow, 1#16⟩)] } })
      (fun t => decide (t.evu = Evu.reset)) = true := by decide

/-- R155, R182: one RX_OVERFLOW of frame 0x0192 is read as 05 FF FF FF 01 92. -/
theorem test_next_events :
    after (exec (.nextEvents .h0)
      ((ask .h0 .nextEvents [0x08#8] State.reset).onEvq .h0 fun _ => ⟨[⟨.rxOverflow, 0x0192#16⟩], true⟩))
      (fun t => decide ((t.port .h0).held.map Response.payload =
        some [0x00#8, 0x01#8, 0x01#8, 0x05#8, 0xFF#8, 0xFF#8, 0xFF#8, 0x01#8, 0x92#8])) = true := by decide


/-! ### Witnesses: for each statement with hypotheses, concrete inputs that meet them, clause by clause -/

theorem witness_step_takes_the_front_command :
    ({ State.reset with pending := [.partReset] } : State).pending = Instr.partReset :: [] ∧
      State.reset.pending = [] := by decide

theorem witness_only_refclk_stop_ends_in_a_fault : Instr.partReset ≠ .refclkStop := by decide

theorem witness_opening_captures_status_byte : (State.reset.port .h0).selLow = false := by decide

theorem witness_status_transaction_clears_latches_shown :
    ((inTr 0x06#8 State.reset).port .h0).selLow = true ∧
      ((inTr 0x06#8 State.reset).port .h0).framer = .receiving 0x06#8 := by decide

/-- A collect of eight bits, the fewest; a held response shown, with its body; and none shown. -/
theorem witness_collect_sends_and_releases_the_response :
    (let s := (inTr 0x20#8 State.reset).onPort .h0 fun p => { p with held := some ⟨0x01#8, 0x5A#8, .ok, [1#8]⟩ }
     (s.port .h0).selLow = true ∧ (s.port .h0).framer = .receiving 0x20#8 ∧ 8 ≤ 8 ∧
       (s.port .h0).held = some ⟨0x01#8, 0x5A#8, .ok, [1#8]⟩ ∧ (0x20#8).getLsbD 5 = true ∧
       [0x01#8, 0x5A#8, 0x00#8, 0x01#8, 1#8] =
         [0x01#8, 0x5A#8, Result.ok.code, nat8 [1#8].length] ++ [1#8]) ∧
    (let s := inTr 0x00#8 State.reset
     (s.port .h0).selLow = true ∧ (s.port .h0).framer = .receiving 0x00#8 ∧ (0x00#8).getLsbD 5 = false) := by
  decide

/-- A frame cut short; and a whole one that finds a request, a response, or a DETACHING port. -/
theorem witness_bad_frame_and_dropped_frame_set_their_latch :
    ((Instr.requestFrame .h0 [0x01#8] 7).wellFormed = true ∧ parseFrame [0x01#8] 7 = none ∧
      ((inTr 0x00#8 State.reset).port .h0).selLow = true ∧
      ((inTr 0x00#8 State.reset).port .h0).framer = .receiving 0x00#8) ∧
    ((inTr 0x40#8 (ask .h0 .run [] State.reset)).port .h0).inProgress.isSome = true ∧
    (((inTr 0x20#8 State.reset).onPort .h0 fun p =>
      { p with held := some ⟨0x01#8, 0x5A#8, .ok, [1#8]⟩ }).port .h0).held.isSome = true ∧
    ((inTr 0x00#8 (leavingPort .h0 State.reset)).port .h0).state = .detaching := by decide

/-- A request frame of kind k with a payload and the right CRC. -/
def frameOf (k : Byte) (p : List Byte) : List Byte :=
  [k, 0x05#8, nat8 p.length] ++ p ++ [crc8 ([k, 0x05#8, nat8 p.length] ++ p)]

set_option maxRecDepth 8000 in
/-- An unknown kind; RUN from DETACHED; ATTACH from ATTACHED; DETACH with a payload; RUN from ATTACHED. -/
theorem witness_accepted_frame_is_judged_by_its_port :
    (let s := inTr 0x00#8 State.reset
     let u := inTr 0x80#8 (att .h0 State.reset)
     (s.port .h0).selLow = true ∧ (s.port .h0).framer = .receiving 0x00#8 ∧ (s.port .h0).inProgress = none ∧
       (s.port .h0).held = none ∧ (s.port .h0).state = .detached ∧
     (u.port .h0).selLow = true ∧ (u.port .h0).framer = .receiving 0x80#8 ∧ (u.port .h0).inProgress = none ∧
       (u.port .h0).held = none ∧ (u.port .h0).state = .attached) ∧
    (parseFrame (frameOf 0x7E#8 []) 0 = some ⟨0x7E#8, 0x05#8, []⟩ ∧ Kind.ofByte 0x7E#8 = none) ∧
    (parseFrame (frameOf 0x30#8 []) 0 = some ⟨0x30#8, 0x05#8, []⟩ ∧ Kind.ofByte 0x30#8 = some .run) ∧
    (parseFrame (frameOf 0x01#8 []) 0 = some ⟨0x01#8, 0x05#8, []⟩ ∧ Kind.ofByte 0x01#8 = some .attach) ∧
    (parseFrame (frameOf 0x02#8 [9#8]) 0 = some ⟨0x02#8, 0x05#8, [9#8]⟩ ∧ Kind.ofByte 0x02#8 = some .detach) ∧
    (Instr.requestFrame .h0 (frameOf 0x7E#8 []) 0).wellFormed = true ∧
    (Instr.requestFrame .h0 (frameOf 0x30#8 []) 0).wellFormed = true ∧
    (Instr.requestFrame .h0 (frameOf 0x01#8 []) 0).wellFormed = true ∧
    (Instr.requestFrame .h0 (frameOf 0x02#8 [9#8]) 0).wellFormed = true := by decide

theorem witness_attach_and_detach_move_the_session :
    (req .attach []).payload = [] ∧ (req .detach []).payload = [] ∧
    Asked (State.reset.onPort .h0 fun p => { p with inProgress := some (req .attach []) }) .h0 .attach
      (req .attach []) ∧
    ((State.reset.onPort .h0 fun p => { p with inProgress := some (req .attach []) }).port .h0).state = .detached ∧
    Asked (ask .h0 .detach [] State.reset) .h0 .detach (req .detach []) ∧
    ((ask .h0 .detach [] State.reset).port .h0).state = .attached ∧
    ∀ os ∈ (ask .h0 .detach [] State.reset).ws.fromFre, ∀ l, os = .offers l → ∀ o ∈ l, o.host ≠ .h0 :=
  ⟨rfl, rfl, ⟨rfl, rfl⟩, rfl, ⟨rfl, rfl⟩, rfl, fun _ m => nomatch m⟩

theorem witness_set_attention_replaces_the_mask :
    (Asked (ask .h0 .setAttention [0xFF#8] State.reset) .h0 .setAttention (req .setAttention [0xFF#8]) ∧
      ((ask .h0 .setAttention [0xFF#8] State.reset).port .h0).state = .attached) ∧
    Asked (ask .h0 .setAttention [] State.reset) .h0 .setAttention (req .setAttention []) ∧
    (req .setAttention []).payload.length ≠ 1 :=
  ⟨⟨⟨rfl, rfl⟩, rfl⟩, ⟨rfl, rfl⟩, by decide⟩

/-- H0 ATTACHED, its RUN in progress, and the RUN command waiting. -/
def runWaits : State := { ask .h0 .run [] State.reset with pending := [.run .h0] }

theorem witness_port_event_and_atn_laws_are_kept :
    ∃ t, PortLaw runWaits ∧ EventLaw runWaits ∧ AtnLaw runWaits ∧ SdoLaw runWaits ∧ step runWaits = .next t := by
  refine ⟨_, fun h => ?_, fun h => ?_, fun h => ?_, fun h => ?_, rfl⟩
  · cases h <;> refine ⟨?_, ?_, ?_, ?_⟩ <;> intro x <;> first | rfl | cases x | exact absurd rfl x
  · cases h <;> exact ⟨Nat.zero_le _, fun _ _ => rfl⟩
  · cases h <;> rfl
  · cases h <;> decide

/-- H0 and H2 wait with the pointer at H2: H0 is chosen. -/
theorem witness_arbiter_serves_in_circular_order :
    (let s := (ask .h0 .querySlot [0#8] (ask .h2 .querySlot [1#8] State.reset)).onRsc fun c => { c with pointer := .h2 }
     granted s = some .h0 ∧ waitsAt s .rsc .h0 = true ∧ waitsAt s .rsc .h2 = true ∧ rscFree s = true) ∧
    ∃ after : HostId → HostId → Nat,
      ∀ p g, after p g = ((hostCode g).toNat + 3 - (hostCode p).toNat) % 4 :=
  ⟨by decide, _, fun _ _ => rfl⟩

/-- The edges of each range: one slot and eight, depths 1 and 16, one entry and 32, F of 2 and 64. -/
theorem witness_payloads_are_read_field_by_field :
    (1 ≤ [0].length ∧ [0].length ≤ 8 ∧ ∀ x ∈ [0], x < 256) ∧
    (1 ≤ (List.range' 248 8).length ∧ (List.range' 248 8).length ≤ 8 ∧ ∀ x ∈ List.range' 248 8, x < 256) ∧
    (1 ≤ 1 ∧ 1 ≤ 16) ∧ (1 ≤ 16 ∧ 16 ≤ 16) ∧
    ((0x00#8 = 0x00#8 ∧ ReleaseMode.discard = .discard) ∨ (0x00#8 = 0x01#8 ∧ ReleaseMode.discard = .drain)) ∧
    ((0x01#8 = 0x00#8 ∧ ReleaseMode.drain = .discard) ∨ (0x01#8 = 0x01#8 ∧ ReleaseMode.drain = .drain)) ∧
    (1 ≤ [(TxEntry.silence, 7#32)].length ∧ [(TxEntry.silence, 7#32)].length ≤ 32) ∧
    (1 ≤ (List.replicate 32 (TxEntry.word 9#32, 0#32)).length ∧
      (List.replicate 32 (TxEntry.word 9#32, 0#32)).length ≤ 32) ∧
    (let f : Format := ⟨2, 8, 0, .bit, .leader, 1, 0#32⟩
     2 ≤ f.slots ∧ f.slots ≤ 64 ∧ (f.width = 8 ∨ f.width = 16 ∨ f.width = 24 ∨ f.width = 32) ∧ f.gap ≤ 15 ∧
       1 ≤ f.div ∧ f.div ≤ 2048) ∧
    (let f : Format := ⟨64, 32, 15, .word, .follower, 2048, 0#32⟩
     2 ≤ f.slots ∧ f.slots ≤ 64 ∧ (f.width = 8 ∨ f.width = 16 ∨ f.width = 24 ∨ f.width = 32) ∧ f.gap ≤ 15 ∧
       1 ≤ f.div ∧ f.div ≤ 2048) := by decide

/-- A payload that is read, for each of the five kinds: a count of one, and of eight slots. -/
theorem witness_only_payloads_in_range_are_read :
    parseClaim [0x00#8, 0#8, 3#8, 0x02#8, 16#8, 0x01#8, 0x01#8, 63#8] =
      some ⟨.talk ⟨.pattern, 16, true, none, 0#8, false⟩, 3#16, [63]⟩ ∧
    parseClaim [0x01#8, 0#8, 3#8, 9#8, 9#8, 9#8, 0x08#8, 1#8, 2#8, 3#8, 4#8, 5#8, 6#8, 7#8, 8#8] =
      some ⟨.listen, 3#16, [1, 2, 3, 4, 5, 6, 7, 8]⟩ ∧
    parseRelease [0x00#8, 0x01#8, 0x01#8, 5#8] = some ⟨.talk, .drain, [5]⟩ ∧
    parseRenew [0x01#8, 0x01#8, 5#8] = some (.listen, [5]) ∧
    parseWrite [5#8, 0x01#8, 0x02#8, 1#8, 2#8, 3#8, 4#8] = some (5, [.silence]) ∧
    parseFormat [2#8, 8#8, 0#8, 0x00#8, 0x00#8, 0#8, 1#8, 0#8, 0#8, 0#8, 0#8] =
      some ⟨2, 8, 0, .bit, .leader, 1, 0#32⟩ := by decide

/-- A CLAIM payload: role, lease 3, PATTERN, depth 2, no auto-renew, the slots. -/
def claimBytes (role : Byte) (slots : List Byte) : List Byte :=
  [role, 0#8, 3#8, 0x02#8, 2#8, 0x00#8, nat8 slots.length] ++ slots

/-- H0 asks to claim, the arbiter chooses it, the store holds those records and F is 32. -/
def claiming (role : Byte) (slots : List Byte) (rs : List ClaimRec) : State :=
  ask .h0 .claim (claimBytes role slots) (store rs State.reset)

/-- The two roles, each with the two slots 0 and F - 1. -/
theorem witness_claim_creates_its_records :
    (let s := claiming 0x00#8 [0#8, 31#8] []
     let a : ClaimArgs := ⟨.talk ⟨.pattern, 2, false, none, 0#8, false⟩, 3#16, [0, 31]⟩
     (rscFree s = true ∧ granted s = some .h0) ∧
       ((s.port .h0).inProgress = some (req .claim (claimBytes 0x00#8 [0#8, 31#8])) ∧ Kind.claim = .claim) ∧
       parseClaim (claimBytes 0x00#8 [0#8, 31#8]) = some a ∧ a.slots.Nodup ∧ (∀ x ∈ a.slots, x < s.fre.fmt.slots) ∧
       recordCount s.rsc.records .h0 + a.slots.length ≤ 32 ∧ s.rsc.records = []) ∧
    (let s := claiming 0x01#8 [5#8] [listener .h1 1 .active]
     let a : ClaimArgs := ⟨.listen, 3#16, [5]⟩
     (rscFree s = true ∧ granted s = some .h0) ∧ parseClaim (claimBytes 0x01#8 [5#8]) = some a ∧
       recordCount s.rsc.records .h0 + a.slots.length ≤ 32 ∧
       ∀ x ∈ a.slots, ∀ q ∈ s.rsc.records, q.slot = x → q.forward = true →
         ¬(a.body.role = .talk ∧ q.role = .talk) ∧ ¬(q.host = .h0 ∧ q.role = a.body.role)) := by decide

/-- 31 records of H0, on slots 0 to 30. -/
def many : List ClaimRec := (List.range 31).map fun i => { listener .h0 i .active with slot := i }

/-- Each check fails first: an unreadable payload, a repeated slot, slot F, the 33rd record, a slot taken. -/
theorem witness_claim_is_refused_by_its_first_failing_check :
    (parseClaim [0x02#8] = none ∧
      (let s := ask .h0 .claim [0x02#8] State.reset; rscFree s = true ∧ granted s = some .h0)) ∧
    (let a : ClaimArgs := ⟨.listen, 3#16, [4, 4]⟩
     parseClaim (claimBytes 0x01#8 [4#8, 4#8]) = some a ∧ 1 < a.slots.length ∧ a.slots[1]! ∈ a.slots.take 1 ∧
       (a.slots.take 1).Nodup) ∧
    (let s := claiming 0x01#8 [31#8, 32#8] []
     let a : ClaimArgs := ⟨.listen, 3#16, [31, 32]⟩
     parseClaim (claimBytes 0x01#8 [31#8, 32#8]) = some a ∧ a.slots.Nodup ∧ s.fre.fmt.slots ≤ a.slots[1]! ∧
       ∀ x ∈ a.slots.take 1, x < s.fre.fmt.slots) ∧
    (let s := claiming 0x00#8 [1#8, 2#8] many
     32 < recordCount s.rsc.records .h0 + [1, 2].length ∧ rscFree s = true ∧ granted s = some .h0) ∧
    (let s := claiming 0x00#8 [4#8, 5#8] [{ talker .pendingAdd with host := .h1 }]
     let a : ClaimArgs := ⟨.talk ⟨.pattern, 2, false, none, 0#8, false⟩, 3#16, [4, 5]⟩
     parseClaim (claimBytes 0x00#8 [4#8, 5#8]) = some a ∧ recordCount s.rsc.records .h0 + a.slots.length ≤ 32 ∧
       (∃ q ∈ s.rsc.records, q.slot = a.slots[1]! ∧ q.forward = true ∧
         ((a.body.role = .talk ∧ q.role = .talk) ∨ (q.host = .h0 ∧ q.role = a.body.role))) ∧
       ∀ x ∈ a.slots.take 1, ∀ q ∈ s.rsc.records, q.slot = x → q.forward = true →
         ¬(a.body.role = .talk ∧ q.role = .talk) ∧ ¬(q.host = .h0 ∧ q.role = a.body.role)) := by decide

theorem witness_refused_claim_request_changes_nothing :
    ∃ t r, (rscFree (ask .h0 .claim [0x02#8] State.reset) = true ∧
        granted (ask .h0 .claim [0x02#8] State.reset) = some .h0) ∧
      ((ask .h0 .claim [0x02#8] State.reset).port .h0).held = none ∧
      exec .claim (ask .h0 .claim [0x02#8] State.reset) = .next t ∧ (t.port .h0).held = some r ∧ r.result ≠ .ok :=
  ⟨_, ⟨0x10#8, 0x5A#8, .badArgument, [0xFF#8]⟩, by decide, rfl, rfl, rfl, by decide⟩

/-- H0 releases or renews its TALK claim on slot 5, which the store holds in that state, or not at all. -/
def naming (k : Kind) (payload : List Byte) (rs : List ClaimRec) : State := ask .h0 k payload (store rs State.reset)

theorem witness_key_checks_of_release_and_renew :
    (parseRelease [0x00#8] = none ∧ parseRenew [0x00#8] = none ∧
      granted (naming .release [0x00#8] []) = some .h0 ∧ granted (naming .renew [0x00#8] []) = some .h0 ∧
      rscFree (naming .release [0x00#8] []) = true ∧ rscFree (naming .renew [0x00#8] []) = true) ∧
    (parseRelease [0x00#8, 0x00#8, 0x02#8, 5#8, 5#8] = some ⟨.talk, .discard, [5, 5]⟩ ∧
      [5, 5][1]! ∈ [5, 5].take 1 ∧ ([5, 5].take 1).Nodup) ∧
    (let s := naming .renew [0x00#8, 0x01#8, 5#8] [talker (.pendingRelease .drain)]
     parseRenew [0x00#8, 0x01#8, 5#8] = some (.talk, [5]) ∧ granted s = some .h0 ∧
       (∀ q ∈ s.rsc.records, q.host = .h0 → q.slot = [5][0]! → q.role = .talk → q.forward = false) ∧
       ∃ q ∈ s.rsc.records, q.host = .h0 ∧ q.slot = [5][0]! ∧ q.role = .talk) ∧
    (let s := naming .release [0x00#8, 0x00#8, 0x02#8, 5#8, 6#8] [talker .active]
     parseRelease [0x00#8, 0x00#8, 0x02#8, 5#8, 6#8] = some ⟨.talk, .discard, [5, 6]⟩ ∧ granted s = some .h0 ∧
       (∀ x ∈ [5, 6].take 1, ∃ q ∈ s.rsc.records, q.host = .h0 ∧ q.slot = x ∧ q.role = .talk ∧ q.forward = true) ∧
       ∀ q ∈ s.rsc.records, ¬(q.host = .h0 ∧ q.slot = [5, 6][1]! ∧ q.role = .talk)) := by decide

theorem talker_law (st : RecState) (n : st = .pendingAdd ∨ st = .active) :
    RecordsLaw [talker st] Format.default.slots 64 := by
  rcases n with rfl | rfl
  · exact recordsLaw_one (.inr rfl) (by decide) (by decide)
  · exact recordsLaw_one ⟨by decide, by decide, by decide⟩ (by decide) (by decide)

/-- A withdrawn record, and a released one. -/
theorem witness_release_withdraws_or_begins_release :
    ∀ st, st = .pendingAdd ∨ st = .active →
      (let s := naming .release [0x00#8, 0x00#8, 0x01#8, 5#8] [talker st]
       StoreLaw s ∧ Chosen s .h0 ∧ Asked s .h0 .release (req .release [0x00#8, 0x00#8, 0x01#8, 5#8]) ∧
         parseRelease [0x00#8, 0x00#8, 0x01#8, 5#8] = some ⟨.talk, .discard, [5]⟩ ∧ [5].Nodup ∧
         ∀ x ∈ [5], talker st ∈ s.rsc.records ∧ (talker st).host = .h0 ∧ (talker st).slot = x ∧
           (talker st).role = .talk ∧ (talker st).forward = true) := by
  intro st n
  refine ⟨storeLaw_of (talker_law st n) rfl rfl, ?_, ⟨rfl, rfl⟩, by decide, by decide, ?_⟩
  · rcases n with rfl | rfl <;> exact ⟨by decide, by decide⟩
  · rcases n with rfl | rfl <;> decide

theorem witness_renew_restarts_the_lease :
    ∀ st, st = .pendingAdd ∨ st = .active →
      (let s := naming .renew [0x00#8, 0x01#8, 5#8] [talker st]
       StoreLaw s ∧ Chosen s .h0 ∧ Asked s .h0 .renew (req .renew [0x00#8, 0x01#8, 5#8]) ∧
         parseRenew [0x00#8, 0x01#8, 5#8] = some (.talk, [5]) ∧ [5].Nodup ∧
         ∀ x ∈ [5], talker st ∈ s.rsc.records ∧ (talker st).host = .h0 ∧ (talker st).slot = x ∧
           (talker st).role = .talk ∧ (talker st).forward = true) := by
  intro st n
  refine ⟨storeLaw_of (talker_law st n) rfl rfl, ?_, ⟨rfl, rfl⟩, by decide, by decide, ?_⟩
  · rcases n with rfl | rfl <;> exact ⟨by decide, by decide⟩
  · rcases n with rfl | rfl <;> decide

/-- No payload byte, slot 64, slot 63. -/
theorem witness_query_slot_reports_the_store :
    (∀ p ∈ [[], [64#8], [63#8]], rscFree (ask .h0 .querySlot p State.reset) = true ∧
      granted (ask .h0 .querySlot p State.reset) = some .h0 ∧
      ((ask .h0 .querySlot p State.reset).port .h0).inProgress = some (req .querySlot p)) ∧
    ([] : List Byte).length ≠ 1 ∧ 63 < (64#8).toNat ∧ (63#8).toNat ≤ 63 := by decide

theorem witness_rsc_session_end_releases_the_hosts_records :
    (let s := store [talker .active, listener .h0 1 .pendingAdd] (leavingPort .h0 State.reset)
     (s.port .h0).toReport.rsc = true ∧ rscFree s = true) := by decide

/-- The store holds H0's ACTIVE talker on slot 5, and a boundary notice waits. -/
def noticed : State := (store [talker .active] State.reset).onRsc fun c => { c with notices := [1#32] }

theorem witness_store_law_is_kept :
    ∃ t, StoreLaw { noticed with pending := [.boundaryProcedure] } ∧
      step { noticed with pending := [.boundaryProcedure] } = .next t :=
  ⟨_, storeLaw_of (talker_law .active (.inr rfl)) rfl rfl, rfl⟩

theorem witness_boundary_procedure_record_by_record :
    StoreLaw noticed ∧ noticed.rsc.awaiting = none ∧ noticed.rsc.proc = none ∧ noticed.rsc.notices = 1#32 :: [] :=
  ⟨storeLaw_of (talker_law .active (.inr rfl)) rfl rfl, rfl, rfl, rfl⟩

theorem witness_boundary_procedure_queues_its_events :
    ∃ (t : State) (toOthers : ClaimRec → Option HostId → List (HostId × Event)),
      StoreLaw noticed ∧ noticed.rsc.awaiting = none ∧ noticed.rsc.proc = none ∧
      noticed.rsc.notices = 1#32 :: [] ∧
      (∀ r talker, toOthers r talker =
        if r.role = .listen then []
        else
          ([.h0, .h1, .h2, .h3].filter fun g => noticed.rsc.records.any fun q =>
            decide (q.host = g ∧ q.slot = r.slot ∧ q.role = .listen ∧
              g ≠ r.host) && q.forward).map
            fun g => (g, ⟨.talkerChanged r.slot talker, (1#32 : Word).setWidth 16⟩)) ∧
      exec .boundaryProcedure noticed = .next t :=
  ⟨_, _, storeLaw_of (talker_law .active (.inr rfl)) rfl rfl, rfl, rfl, rfl, fun _ _ => rfl, rfl⟩

/-- One record passed and one before the record whose lease has run out, in a procedure under way; and a notice, with
that record behind one kept and one removed. -/
theorem witness_lease_expiry_deletes_the_record :
    (let r := { talker .active with remaining := some 0#16, id := 2, slot := 7 }
     let p : Procedure := ⟨1#32, [⟨7, .h3⟩], 1⟩
     let s := (store [listener .h1 0 .active, talker .active, r] State.reset).onRsc fun c => { c with proc := some p }
     let u := (store [listener .h1 0 (.pendingRelease .drain), talker .active, r] State.reset).onRsc fun c =>
       { c with notices := [1#32] }
     (s.rsc.awaiting = none ∧ s.rsc.proc = some p ∧ p.visited = [listener .h1 0 .active].length ∧
       s.rsc.records = [listener .h1 0 .active] ++ [talker .active] ++ r :: []) ∧
     (u.rsc.awaiting = none ∧ u.rsc.proc = none ∧ u.rsc.notices = 1#32 :: [] ∧
       u.rsc.records.filter (fun q => !removedAt u.ws.queues q) = [talker .active] ++ r :: []) ∧
     (∀ q ∈ [talker .active], ranOut q = false) ∧ ranOut r = true) := by decide

theorem witness_lease_expiry_is_part_of_the_procedure :
    ∃ t, exec .leaseExpiry ((store [{ talker .active with remaining := some 0#16 }] State.reset).onRsc fun c =>
      { c with notices := [1#32] }) = .next t := ⟨_, rfl⟩

theorem witness_lease_runs_its_frames_and_ends :
    ∃ store : Nat → List ClaimRec,
      (∀ j, store (j + 1) = (runProcedure 1#32 [] (store j)).records) ∧ ((store 0).map ClaimRec.id).Nodup ∧
      talker .active ∈ store 0 ∧ (talker .active).state = .active ∧ (talker .active).lease ≠ 0#16 ∧
      (talker .active).remaining = some 2#16 :=
  ⟨fun j => Nat.rec [talker .active] (fun _ rs => (runProcedure 1#32 [] rs).records) j,
    fun _ => rfl, by decide, by decide, rfl, by decide, rfl⟩

/-- A FORMAT payload with that F. -/
def formatBytes (f : Byte) : List Byte := [f, 8#8, 0#8, 0x00#8, 0x00#8, 0#8, 1#8, 0#8, 0#8, 0#8, 0#8]

/-- RUNNING; an unreadable payload; F = 6, above the record's slot 5; F = 5, at it. -/
theorem witness_format_is_checked_and_replaces_the_record :
    (∀ p ∈ [[], formatBytes 6#8, formatBytes 5#8],
      (let s := ask .h0 .format p (store [talker .active] State.reset)
       (s.port .h0).inProgress = some (req .format p) ∧ mayTake s .fre .h0 = true ∧ rscFree s = true ∧
         s.fre.engine = .stopped)) ∧
    (let s := ask .h0 .format [] (engine .running .leader 0 false State.reset)
     mayTake s .fre .h0 = true ∧ rscFree s = true ∧ s.fre.engine ≠ .stopped) ∧
    parseFormat [] = none ∧ parseFormat (formatBytes 6#8) = some ⟨6, 8, 0, .bit, .leader, 1, 0#32⟩ ∧
    parseFormat (formatBytes 5#8) = some ⟨5, 8, 0, .bit, .leader, 1, 0#32⟩ ∧
    (∀ q ∈ [talker .active], q.slot < 6) ∧ ∃ q ∈ [talker .active], 5 ≤ q.slot := by decide

/-- A vote already there; STOPPED in each mode; STOPPING. -/
theorem witness_run_adds_the_vote :
    (let s := ask .h0 .run [] (engine .running .leader 0 false State.reset)
     (s.port .h0).inProgress = some (req .run []) ∧ mayTake s .fre .h0 = true ∧ noVotes s.fre.votes = false) ∧
    (∀ m ∈ [Mode.leader, Mode.follower],
      (let s := ask .h0 .run [] (engine .stopped m 0 false State.reset)
       mayTake s .fre .h0 = true ∧ noVotes s.fre.votes = true ∧ s.fre.engine = .stopped ∧ s.fre.fmt.mode = m)) ∧
    (let s := ask .h0 .run [] (engine .stopping .leader 0 false State.reset)
     mayTake s .fre .h0 = true ∧ noVotes s.fre.votes = true ∧ s.fre.engine = .stopping) := by decide

/-- HALT and the session end, of the last vote and of one of two, in ACQUIRING, the lead-in and a frame. -/
theorem witness_halt_and_session_end_remove_the_vote :
    (let s := ask .h0 .halt [] (engine .acquiring .follower 0 false State.reset)
     (s.port .h0).inProgress = some (req .halt []) ∧ mayTake s .fre .h0 = true ∧ noVotes s.fre.votes = false ∧
       noVotes (s.fre.votes.set .h0 false) = true ∧ s.fre.engine = .acquiring) ∧
    (let s := (leavingPort .h0 (engine .running .leader 0 false State.reset)).onFre fun f => { f with leadIn := true }
     (s.port .h0).toReport.fre = true ∧ noVotes (s.fre.votes.set .h0 false) = true ∧ s.fre.engine = .running ∧
       s.fre.leadIn = true) ∧
    (let s := leavingPort .h0 (engine .running .leader 0 false State.reset)
     (s.port .h0).toReport.fre = true ∧ noVotes (s.fre.votes.set .h0 false) = true ∧ s.fre.engine = .running ∧
       s.fre.leadIn = false) ∧
    (let s := leavingPort .h1 (engine .running .leader 0 false State.reset)
     (s.port .h1).toReport.fre = true ∧ noVotes (s.fre.votes.set .h1 false) = false) ∧
    noVotes State.reset.fre.votes = true := by decide

theorem witness_query_engine_reports_the_engine :
    (let s := ask .h0 .queryEngine [7#8] (engine .running .leader 0 false State.reset)
     (s.port .h0).inProgress = some (req .queryEngine [7#8]) ∧ mayTake s .fre .h0 = true) := by decide

theorem witness_engine_laws_are_kept :
    ∃ t, VoteLaw runWaits ∧ FormatLaw runWaits ∧ LineLaw runWaits ∧ step runWaits = .next t :=
  ⟨_, ⟨fun _ => .inl rfl, fun _ => rfl⟩, fun n => absurd rfl n, ⟨rfl, rfl, fun _ => ⟨rfl, rfl⟩⟩, rfl⟩

/-- The lead-in; and bit position 16 = N - 1, RUNNING and STOPPING. -/
theorem witness_leader_boundary_advances_the_frame :
    (let s := (engine .running .leader 0 false State.reset).onFre fun f => { f with leadIn := true }
     s.fre.engine = .running ∧ s.fre.leadIn = true) ∧
    ∀ st ∈ [EngineState.running, .stopping],
      (let s := engine st .leader 16 false State.reset
       s.fre.engine = st ∧ s.fre.leadIn = false ∧ risingNext s = true ∧ rscQuiet s = true ∧
         s.fre.inUse.mode = .leader ∧
         s.fre.bitPos + 1 = s.fre.inUse.slots * s.fre.inUse.width + s.fre.inUse.gap) := by decide

theorem witness_expected_instant_asks_for_confirmation :
    ∀ st ∈ [EngineState.running, .stopping],
      (let s := engine st .follower 16 false State.reset
       s.fre.engine = st ∧ risingNext s = true ∧ rscQuiet s = true ∧ s.fre.inUse.mode = .follower ∧
         s.fre.bitPos + 1 = s.fre.inUse.slots * s.fre.inUse.width + s.fre.inUse.gap) := by decide

/-- A notice awaiting confirmation has been sent. -/
def sent (s : State) : State := s.onRsc fun c => { c with awaiting := some (.sent 1#32) }

/-- Slot 0's start due: no talker, the talker of a DETACHING host, and a talker with a WORD, a SILENCE and nothing
queued under each fill policy, on the map worked out; and not due. -/
theorem witness_awaiting_notice_changes_no_record :
    (let r (fill : FillPolicy) := { talker .active with slot := 0, body := .talk ⟨fill, 2, false, none, 0#8, false⟩ }
     let s (fill : FillPolicy) es :=
       sent (due (queue es (engine .running .follower 16 true (store [r fill] State.reset))))
     (∀ es ∈ [[TxEntry.word 7#32], [.silence], []], ∀ fill ∈ [FillPolicy.silent, .pattern, .repeatLast],
        (s fill es).rsc.awaiting = some (.sent 1#32) ∧ (s fill es).fre.slot0Due = true ∧
        (let b := runProcedure 1#32 (s fill es).ws.queues (s fill es).rsc.records
         b.map[0]? = some ⟨some 0, []⟩ ∧ (recordOf b.records 0).map ClaimRec.body = some (r fill).body ∧
           (recordOf b.records 0).map ClaimRec.state = some .active) ∧
        ((s fill es).port .h0).state ≠ .detaching ∧ entriesOf (s fill es).ws.queues 0 .h0 = es) ∧
      ((leavingPort .h0 (s .silent [])).port .h0).state = .detaching ∧
      (leavingPort .h0 (s .silent [])).rsc.awaiting = some (.sent 1#32)) ∧
    (runProcedure 1#32 [] []).map[0]? = some MapEntry.empty ∧
    (sent State.reset).rsc.awaiting = some (.sent 1#32) ∧ (sent State.reset).fre.slot0Due = false := by decide

/-- The procedure of the notice is worked out. -/
def worked (b : BoundaryResult) (s : State) : State :=
  s.onRsc fun c => { c with awaiting := some (.worked 1#32 b) }

/-- RUNNING with none, a word and an underrun of slot 0 waiting; STOPPING. -/
theorem witness_expected_sync_confirms_the_boundary :
    (∀ st ∈ [EngineState.running, .stopping],
      (let s := worked ⟨[], [], [], []⟩ (engine st .follower 16 true State.reset)
       s.fre.inUse.mode = .follower ∧ s.fre.prevSync = some false ∧ s.fre.clkHigh = true ∧
         s.rsc.awaiting = some (.worked 1#32 ⟨[], [], [], []⟩) ∧ s.fre.engine = st ∧ s.fre.provisional = none)) ∧
    ∀ w ∈ [Traffic.wordSent 0 7#32, .underrun 0],
      (let s := (worked ⟨[talker .active], [], [], []⟩ (engine .running .follower 16 true State.reset)).onFre fun f =>
         { f with provisional := some w }
       s.fre.engine = .running ∧ s.fre.provisional = some w ∧
         s.rsc.awaiting = some (.worked 1#32 ⟨[talker .active], [], [], []⟩) ∧
         recordOf [talker .active] 0 = some (talker .active)) := by decide

/-- An early sync, with no notice outstanding and with one, and a missing one, RUNNING and STOPPING. -/
theorem witness_loss_of_lock_abandons_the_frame :
    ∀ st ∈ [EngineState.running, .stopping],
      (let s := engine st .follower 3 true State.reset
       s.fre.inUse.mode = .follower ∧ s.fre.engine = st ∧ s.fre.clkHigh = true ∧ s.fre.prevSync = some false ∧
         s.rsc.awaiting = none ∧ rscQuiet s = true ∧
         ((s.onRsc fun c => { c with notices := [1#32] }).rsc.awaiting = none ∧
           (s.onRsc fun c => { c with notices := [1#32] }).rsc.proc = none ∧
           (s.onRsc fun c => { c with notices := [1#32] }).rsc.notices = [1#32])) ∧
      (let s := worked ⟨[], [], [], []⟩ (engine st .follower 16 true State.reset)
       s.fre.inUse.mode = .follower ∧ s.fre.engine = st ∧ s.fre.clkHigh = true ∧
         s.rsc.awaiting = some (.worked 1#32 ⟨[], [], [], []⟩) ∧ ¬(s.fre.prevSync = some false ∧ false = true)) := by
  decide

/-- ACQUIRING with no count, with count 15, 16 = N - 1, and 17 = N. -/
theorem witness_acquisition_counts_and_locks :
    (∀ acq ∈ [none, some 15, some 16, some 17],
      (let s := (engine .acquiring .follower 0 true State.reset).onFre fun f => { f with acq := acq }
       s.fre.inUse.slots * s.fre.inUse.width + s.fre.inUse.gap = 17 ∧ s.fre.inUse.mode = .follower ∧
         s.fre.engine = .acquiring ∧ s.fre.prevSync = some false ∧ s.fre.acq = acq ∧
         ¬(s.fre.prevSync = some false ∧ false = true))) ∧
    (∀ c, some 15 = some c → c + 1 ≠ 17) ∧ ∃ c, some 16 = some c ∧ c + 1 = 17 :=
  ⟨by decide, fun c e => by cases e; decide, 16, rfl, rfl⟩

/-- H0's talker on slot 0 with that fill and those entries, slot 0's start due. -/
def talking (fill : FillPolicy) (st : RecState) (es : List TxEntry) : State :=
  due (mapped 0 (queue es (engine .running .leader 0 true
    (store [{ talker st with body := .talk ⟨fill, 2, false, none, 255#8, false⟩ }] State.reset))))

/-- Slot 0 with no talker, a silenced one, a WORD, a SILENCE, and an empty queue under each fill policy. -/
theorem witness_slot_start_decides_the_slots_word :
    (let s := due (engine .running .leader 0 true State.reset)
     nextSlotStart s = some 0 ∧ rscQuiet s = true ∧ s.rsc.map[0]? = some MapEntry.empty) ∧
    (let s := talking .silent (.pendingRelease .discard) []
     nextSlotStart s = some 0 ∧ rscQuiet s = true ∧ s.rsc.map[0]? = some ⟨some 0, [1]⟩ ∧
       (recordOf s.rsc.records 0).map ClaimRec.state = some (.pendingRelease .discard)) ∧
    ∀ es ∈ [[TxEntry.word 7#32], [.silence], []], ∀ fill ∈ [FillPolicy.silent, .pattern, .repeatLast],
      (let s := talking fill .active es
       nextSlotStart s = some 0 ∧ rscQuiet s = true ∧ s.rsc.map[0]? = some ⟨some 0, [1]⟩ ∧
         (recordOf s.rsc.records 0).map ClaimRec.body = some (.talk ⟨fill, 2, false, none, 255#8, false⟩) ∧
         (recordOf s.rsc.records 0).map ClaimRec.state = some .active ∧ (s.port .h0).state ≠ .detaching ∧
         entriesOf s.ws.queues 0 .h0 = es) := by decide

/-- The last bit of slot 0 and of slot F - 1 = 1, with each account of the slot. -/
theorem witness_slot_end_offers_the_word_to_its_listeners :
    ∀ x ∈ [0, 1], ∀ acc ∈ [none, some Account.notSent, some (.sentQueued 7#32), some (.sentFill 7#32)],
      (let s := (engine .running .leader (8 * x + 7) true (mapped x (store [talker .active, listener .h1 1 .active]
         State.reset))).onFre fun f => { f with account := acc, rxWord := some 3#32 }
       fallingNext s = true ∧ rscQuiet s = true ∧ recognised s.fre false = false ∧ 0 < s.fre.inUse.width ∧
         x < s.fre.inUse.slots ∧ s.fre.bitPos + 1 = (x + 1) * s.fre.inUse.width ∧
         (7#32 : Word) = (s.fre.rxWord.getD 0#32 <<< 1) ||| (if true then 1#32 else 0#32)) := by decide

/-- Rising edges into bits 1 and 15 and into the gap at 16; falling edges at bits 0 and 16. -/
theorem witness_bit_clock_moves_one_bit :
    (∀ p ∈ [0, 14, 15],
      (let s := engine .running .leader p false State.reset
       0 < s.fre.inUse.width ∧ inFrame s = true ∧ s.fre.slot0Due = false ∧ s.rsc.awaiting = none ∧
         s.fre.clkHigh = false ∧ s.fre.bitPos + 1 < 17 ∧
         (s.fre.bitPos + 1 < 16 → (s.fre.bitPos + 1) % s.fre.inUse.width ≠ 0))) ∧
    ∀ p ∈ [0, 16],
      (let s := engine .running .leader p true State.reset
       inFrame s = true ∧ s.fre.slot0Due = false ∧ s.rsc.awaiting = none ∧ s.fre.clkHigh = true ∧
         (s.fre.bitPos < 16 → (s.fre.bitPos + 1) % s.fre.inUse.width ≠ 0) ∧
         ¬(s.fre.inUse.mode = .follower ∧ s.fre.prevSync = some false ∧ false = true)) := by decide

theorem witness_slots_and_words_stand_at_their_bits :
    (let s := engine .running .leader 7 false State.reset
     0 < s.fre.inUse.width ∧ s.fre.slot0Due = false ∧ nextSlotStart s = some 1) ∧
    ((List.replicate 32 true).length ≤ 32 ∧ List.replicate 32 true ≠ []) ∧ ([false].length ≤ 32 ∧ [false] ≠ []) ∧
    (32 ≤ 32 ∧ 31 < 32) := by decide

/-- H0's queue holds one entry. -/
def oneQueued (s : State) : State := queue [.word 7#32] s

theorem cellLaw_oneQueued (s : State) (e : s.ws = Ws.reset) : CellLaw (oneQueued s) := by
  have w : (oneQueued s).ws = (oneQueued State.reset).ws := by
    simp only [oneQueued, queue, charge, State.onQueues, State.onStore, e]; rfl
  refine ⟨fun h => ?_, ?_, fun h => ?_, ?_⟩
  · unfold heldIs State.store; rw [w]; cases h <;> decide
  · unfold sumHosts State.store; rw [w]; decide
  · unfold State.store; rw [w]; cases h <;> decide
  · unfold sumHosts State.store; rw [w]; decide

/-- The queue's one entry is about to be flushed by its owner's session end. -/
theorem witness_cell_law_is_kept :
    (let s := oneQueued { leavingPort .h0 State.reset with pending := [.wsSessionEnd .h0] }
     ∃ t, CellLaw s ∧ step s = .next t) :=
  ⟨_, cellLaw_oneQueued _ rfl, rfl⟩

/-- A payload of one byte; 1025; 1024, above the pool; 256, the quota as it stands; 0, under one held. -/
theorem witness_set_quota_is_checked_against_held_count_and_pool :
    (∀ p ∈ [[1#8], be16 1025#16, be16 1024#16, be16 256#16, be16 0#16],
      (let s := ask .h0 .setQuota p (oneQueued State.reset)
       (s.port .h0).inProgress = some (req .setQuota p) ∧ mayTake s .ws .h0 = true)) ∧
    [1#8].length ≠ 2 ∧ 1024 < (1025#16).toNat ∧ (1024#16).toNat ≤ 1024 ∧ (256#16).toNat ≤ 1024 := by decide

/-- A host outside H0 to H3; the WS's part alone; the FRE's part last; all four at once. -/
theorem witness_query_host_reports_the_host :
    (∀ p ∈ [[0x04#8], [0x03#8]],
      (let s := ask .h0 .queryHost p State.reset
       (s.port .h0).inProgress = some (req .queryHost p) ∧ mayTake s .ws .h0 = true ∧ rscFree s = true)) ∧
    [0x04#8] ∉ [[0x00#8], [0x01#8], [0x02#8], [0x03#8]] ∧ [0x03#8] = [hostCode .h3] ∧
    (req .queryHost [0x03#8]).report = HostReport.empty ∧
    (let r := { req .queryHost [0x03#8] with
       report := ⟨some (wsReport State.reset .h3), some (rscReport State.reset .h3), none, some .detached⟩ }
     let s := (att .h0 State.reset).onPort .h0 fun p => { p with inProgress := some r }
     (s.port .h0).inProgress = some r ∧ r.kind = .queryHost ∧ mayTake s .ws .h0 = true) := by decide

/-- H0 writes those entries to slot 5, where the store holds its talker in that state and its queue holds `old`. -/
def writing (es : List Byte) (st : RecState) (old : List TxEntry) : State :=
  ask .h0 .writeWords (5#8 :: es) (store [talker st] (queue old State.reset))

/-- One entry written to a queue of depth 2 that holds one: the last place. -/
theorem witness_write_words_queues_its_entries :
    (let s := writing [1#8, 0x02#8, 0#8, 0#8, 0#8, 0#8] .active [.silence]
     StoreLaw s ∧ Asked s .h0 .writeWords (req .writeWords [5#8, 1#8, 0x02#8, 0#8, 0#8, 0#8, 0#8]) ∧
       mayTake s .ws .h0 = true ∧ rscFree s = true ∧
       parseWrite [5#8, 1#8, 0x02#8, 0#8, 0#8, 0#8, 0#8] = some (5, [.silence]) ∧
       talker .active ∈ s.rsc.records ∧ (talker .active).host = .h0 ∧ (talker .active).slot = 5 ∧
       (talker .active).body = .talk ⟨.pattern, 2, true, none, 0#8, false⟩ ∧ (talker .active).forward = true ∧
       (∃ q ∈ s.ws.queues, q.id = 0 ∧ q.owner = .h0) ∧ entriesOf s.ws.queues 0 .h0 = [.silence] ∧
       [TxEntry.silence].length + [TxEntry.silence].length ≤ 2 ∧ (s.store .h0).held + 1 ≤ (s.store .h0).quota) :=
  ⟨storeLaw_of (talker_law .active (.inr rfl)) rfl rfl, ⟨rfl, rfl⟩, by decide, rfl, by decide, by decide, rfl, rfl,
    rfl, rfl, by decide, rfl, by decide, by decide⟩

/-- An unreadable payload; a leaving record; no record; a full queue; no cell left. -/
theorem witness_write_words_is_refused_by_its_first_failing_check :
    parseWrite [5#8, 0#8] = none ∧
    (let s := writing [0#8] .active []
     StoreLaw s ∧ Asked s .h0 .writeWords (req .writeWords [5#8, 0#8]) ∧ mayTake s .ws .h0 = true ∧
       rscFree s = true) ∧
    parseWrite [5#8, 1#8, 0x02#8, 0#8, 0#8, 0#8, 0#8] = some (5, [.silence]) ∧
    (let s := writing [1#8, 0x02#8, 0#8, 0#8, 0#8, 0#8] (.pendingRelease .drain) []
     StoreLaw s ∧ mayTake s .ws .h0 = true ∧ rscFree s = true ∧
       (∀ c ∈ s.rsc.records, c.host = .h0 → c.slot = 5 → c.role = .talk → c.forward = false) ∧
       ∃ c ∈ s.rsc.records, c.host = .h0 ∧ c.slot = 5 ∧ c.role = .talk) ∧
    (let s := ask .h0 .writeWords [5#8, 1#8, 0x02#8, 0#8, 0#8, 0#8, 0#8] State.reset
     StoreLaw s ∧ mayTake s .ws .h0 = true ∧ ∀ c ∈ s.rsc.records, ¬(c.host = .h0 ∧ c.slot = 5 ∧ c.role = .talk)) ∧
    (let s := writing [1#8, 0x02#8, 0#8, 0#8, 0#8, 0#8] .active [.silence, .silence]
     StoreLaw s ∧ mayTake s .ws .h0 = true ∧ (talker .active) ∈ s.rsc.records ∧
       2 < (entriesOf s.ws.queues 0 .h0).length + 1) ∧
    (let s := (writing [1#8, 0x02#8, 0#8, 0#8, 0#8, 0#8] .active [.silence]).onStore .h0 fun c => { c with quota := 1 }
     StoreLaw s ∧ mayTake s .ws .h0 = true ∧ (talker .active) ∈ s.rsc.records ∧
       (entriesOf s.ws.queues 0 .h0).length + 1 ≤ 2 ∧ (s.store .h0).quota < (s.store .h0).held + 1) :=
  ⟨by decide, ⟨storeLaw_of (talker_law .active (.inr rfl)) rfl rfl, ⟨rfl, rfl⟩, by decide, rfl⟩, by decide,
    ⟨storeLaw_of (recordsLaw_one ⟨by decide, by decide, by decide⟩ (by decide) (by decide)) rfl rfl, by decide, rfl,
      by decide, by decide⟩,
    ⟨storeLaw_of (recordsLaw_none _ _) rfl rfl, by decide, by decide⟩,
    ⟨storeLaw_of (talker_law .active (.inr rfl)) rfl rfl, by decide, by decide, by decide⟩,
    ⟨storeLaw_of (talker_law .active (.inr rfl)) rfl rfl, by decide, by decide, by decide, by decide⟩⟩

/-- No byte, 0, 33; 1 and 32. -/
theorem witness_read_words_takes_the_oldest_records :
    (∀ p ∈ [[], [0x00#8], [33#8], [1#8], [32#8]],
      (let s := ask .h0 .readWords p State.reset
       (s.port .h0).inProgress = some (req .readWords p) ∧ mayTake s .ws .h0 = true)) ∧
    32 < (33#8).toNat ∧ 1 ≤ (1#8).toNat ∧ (32#8).toNat ≤ 32 := by decide

theorem witness_clear_overflow_sets_resume_pending :
    (let s := (ask .h0 .clearOverflow [] State.reset).onStore .h0 fun c => { c with latch := true }
     (s.port .h0).inProgress = some (req .clearOverflow []) ∧ mayTake s .ws .h0 = true ∧
       (s.store .h0).latch = true) := by decide

/-- An offer to H2 behind one to H1, to a host with the latch, resume-pending, its quota reached, and room. -/
theorem witness_offer_is_appended_dropped_or_passed_over :
    ∀ c ∈ [⟨1, 1, [], true, false, false, 0xFFFF#16⟩, ⟨1, 1, [], false, true, false, 0#16⟩,
        ⟨1, 1, [], false, false, false, 0xFFFF#16⟩, (⟨1, 0, [], false, false, true, 0#16⟩ : WsHost)],
      (let o : Offer := ⟨.h2, 5, 1#32, 9#32, false, false⟩
       let s := (State.reset.onStore .h2 fun _ => c)
       let u : State := { s with ws := { s.ws with fromFre := [.offers [{ o with host := .h1 }, o]] } }
       u.ws.fromFre = .offers ([{ o with host := .h1 }] ++ o :: []) :: [] ∧ o.host = .h2 ∧
         (∀ q ∈ [{ o with host := .h1 }], q.host ≠ .h2) ∧
         (if [{ o with host := .h1 }] ++ [] = [] then ([] : List FreWork)
           else .offers ([{ o with host := .h1 }] ++ []) :: []) = [.offers [{ o with host := .h1 }]] ∧
         (u.store .h2).held ≤ (u.store .h2).quota) := by decide

theorem witness_notices_at_the_word_store :
    ({ State.reset with ws := { Ws.reset with fromFre := [.loss [.h0]] } } : State).ws.fromFre = .loss [.h0] :: [] ∧
      ({ State.reset with ws := { Ws.reset with fromFre := [.boundary] } } : State).ws.fromFre = .boundary :: [] := by
  decide

/-- H0's queue holds one entry, and its flush and ending are asked for. -/
def asked (s : State) : State := askWs [.flush 0, .ending 0] (oneQueued s)

theorem witness_flush_and_ending_return_the_cells :
    (QueueAsk.flush 0 ∈ (asked State.reset).ws.asks ∧ QueueAsk.ending 0 ∈ (asked State.reset).ws.asks ∧
      (asked State.reset).ws.queues = [] ++ (⟨0, .h0, 2, [.word 7#32]⟩ : TxQueue) :: [] ∧
      ∀ x ∈ ([] : List TxQueue), x.id ≠ 0) ∧
    QueueAsk.flush 0 ∈ (askWs [.flush 0] State.reset).ws.asks ∧
      ∀ x ∈ (askWs [.flush 0] State.reset).ws.queues, x.id ≠ 0 := by decide

theorem leaving_portLaw (s : State) (e : s.ports = (leavingPort .h0 State.reset).ports) : PortLaw s := by
  intro h
  unfold State.port
  rw [e]
  cases h
  · exact ⟨fun _ => rfl, fun _ => ⟨⟨_, rfl, rfl⟩, rfl⟩, fun n => absurd rfl n, fun _ => rfl⟩
  all_goals exact ⟨(fun x => nomatch x), (fun x => nomatch x), fun _ => rfl, fun _ => rfl⟩

theorem witness_cells_return_once_in_either_order :
    (let s := asked (leavingPort .h0 State.reset)
     Instr.queueFlush 0 ∈ [.queueFlush 0, .queueEnding 0, .wsSessionEnd .h0] ∧
       Instr.wsSessionEnd .h0 ∈ [.queueFlush 0, .queueEnding 0, .wsSessionEnd .h0] ∧
       CellLaw s ∧ PortLaw s ∧ (s.ws.queues.map TxQueue.id).Nodup ∧ .flush 0 ∈ s.ws.asks ∧ .ending 0 ∈ s.ws.asks ∧
       (s.port .h0).toReport.ws = true ∧
       ∃ t u v w, exec (.queueFlush 0) s = .next t ∧ exec (.wsSessionEnd .h0) t = .next u ∧
         exec (.wsSessionEnd .h0) s = .next v ∧ exec (.queueFlush 0) v = .next w) :=
  ⟨by decide, by decide, cellLaw_oneQueued (leavingPort .h0 State.reset) rfl, leaving_portLaw _ rfl, by decide,
    by decide, by decide, rfl, _, _, _, _, rfl, rfl, rfl, rfl⟩

theorem witness_session_ends_empty_the_hosts_queues :
    (let s := oneQueued (leavingPort .h0 State.reset)
     CellLaw s ∧ (s.port .h0).toReport.ws = true ∧ (s.port .h0).toReport.evu = true) :=
  ⟨cellLaw_oneQueued _ rfl, rfl, rfl⟩

/-- H0's latch is set, and its CLEAR_OVERFLOW is about to be taken. -/
def clearing : State :=
  { (ask .h0 .clearOverflow [] State.reset).onStore .h0 fun c => { c with latch := true } with
    pending := [.clearOverflow .h0] }

theorem witness_receive_flag_laws_are_kept :
    ∃ t, LatchLaw clearing ∧ FillLaw clearing ∧ OfferLaw clearing ∧ step clearing = .next t := by
  refine ⟨_, fun h => ?_, ⟨fun h => ?_, fun _ m => nomatch m⟩, fun _ _ => rfl, rfl⟩
  · cases h <;> exact fun x => nomatch x.2
  · cases h <;> exact fun _ m => nomatch m

/-- An event of the FRE for H0 behind one for H1: H0 not ATTACHED, with room, and with 16 events. -/
theorem witness_event_is_appended_or_discarded :
    ∀ n ∈ [0, 15, 16],
      (let e : Event := ⟨.engine .running, 1#16⟩
       let s := (att .h0 State.reset).onEvq .h0 fun _ => ⟨List.replicate n ⟨.rxOverflow, 1#16⟩, false⟩
       let u : State := { s with evu := { s.evu with fromFre := [(.h1, e), (.h0, e)] } }
       handedBy u.evu .fre = [(.h1, e)] ++ (.h0, e) :: [] ∧
         (∀ x ∈ [((.h1, e) : HostId × Event)], Emitter.fre = .fre ∧ x.1 ≠ .h0) ∧ (u.evq .h0).events.length ≤ 16 ∧
         (u.port .h0).state = .attached ∧ (State.reset.port .h0).state ≠ .attached) := by decide

/-- No byte, 0, 9; 1 and 8. -/
theorem witness_next_events_takes_the_oldest_events :
    (∀ p ∈ [[], [0x00#8], [9#8], [1#8], [8#8]],
      ((ask .h0 .nextEvents p State.reset).port .h0).inProgress = some (req .nextEvents p)) ∧
    8 < (9#8).toNat ∧ 1 ≤ (1#8).toNat ∧ (8#8).toNat ≤ 8 := by decide

end Sys2Proof.Tests
end

section
/-! O2: which commands stop the part (R1, log 1). -/

namespace Sys2Proof.Machine

/-- Log 1: every command but PART_RESET, which is carried out in any state, and REFCLK_STOP is settled: its step is
taken, or the part cannot take it and the state stays. -/
theorem exec_settles (s : State) (c : Instr) (notReset : c ≠ .partReset) (notStop : c ≠ .refclkStop) :
    ∃ o, exec c s = settle s o := by
  cases c
  case partReset => exact absurd rfl notReset
  case refclkStop => exact absurd rfl notStop
  all_goals exact ⟨_, rfl⟩

theorem exec_partReset (s : State) : exec .partReset s = .next (resetPart s) := rfl

theorem exec_refclkStop (s : State) : exec .refclkStop s = .fault .refclkStopped := rfl

theorem exec_total (s : State) (c : Instr) (notStop : c ≠ .refclkStop) : ∃ t, exec c s = .next t := by
  by_cases reset : c = .partReset
  · subst reset
    exact ⟨_, exec_partReset s⟩
  · obtain ⟨o, settled⟩ := exec_settles s c reset notStop
    rw [settled]
    exact settle_total s o

/-- Settles O2: REFCLK_STOP's one outcome is the fault, and every other command is either settled or PART_RESET. -/
theorem onlyRefclkStopEndsInAFault : Obligations.OnlyRefclkStopEndsInAFault :=
  fun s => ⟨exec_refclkStop s, exec_total s⟩

end Sys2Proof.Machine
end

section
/-! O34: QUERY_ENGINE (R99). -/

namespace Sys2Proof.Machine

open Sys2Proof.Safety

/-- Taking a request and answering it touch the ports only. -/
theorem fairAnswer_blocksKept (o : Owner) (h : HostId) (res : Result) (p : List Byte) (s : State) :
    BlocksKept s (answer h res p (markServed o h s)).refreshAtn := by
  simp [BlocksKept]

/-- R99's fields in the order of Table 27. -/
theorem queryEnginePayload_fields (f : Fre) :
    queryEnginePayload f =
      f.engine.code :: be32 f.frame ++ be16 f.slip ++ [hostSetByte f.votes] ++
        [nat8 f.fmt.slots, nat8 f.fmt.width, nat8 f.fmt.gap, f.fmt.sync.code, f.fmt.mode.code] ++
        be16 (BitVec.ofNat 16 f.fmt.div) ++ be32 f.fmt.idle := by
  simp [queryEnginePayload, Format.encode, nat16]

/-- The step where the fairness law lets the FRE take the request; the response describes the engine of the state it
was taken in. -/
theorem queryEngineStep_taken {s : State} {h : HostId} {r : Request} (asked : Asked s h .queryEngine r)
    (fair : mayTake s .fre h = true) :
    queryEngineStep h s = some (answer h .ok (queryEnginePayload s.fre) (markServed .fre h s)) := by
  have taken : takeFair .queryEngine h s = some (r, markServed .fre h s) := takeFair_some.mpr ⟨asked, fair, rfl⟩
  simp [queryEngineStep, taken]

theorem exec_queryEngine_taken {s : State} {h : HostId} {r : Request} (asked : Asked s h .queryEngine r)
    (fair : mayTake s .fre h = true) :
    exec (.queryEngine h) s =
      .next (answer h .ok (queryEnginePayload s.fre) (markServed .fre h s)).refreshAtn :=
  settle_some (queryEngineStep_taken asked fair)

/-- Settles O34: the step taken answers R99's fields, and neither the taking nor the answer reaches a block. -/
theorem queryEngineReportsTheEngine : Obligations.QueryEngineReportsTheEngine := by
  intro s h r asked fair
  refine ⟨_, exec_queryEngine_taken asked fair, fairAnswer_blocksKept .fre h .ok _ s, ?_⟩
  rw [← queryEnginePayload_fields]
  exact replied_of_answer (markServed_portsKept .fre h s) asked.1

end Sys2Proof.Machine
end

section
/-! Which commands reach the cells (R101 to R113): the WS as the cell law reads it, and the commands that leave it as it
stands. -/

namespace Sys2Proof.Machine

/-! ### What the WS holds -/

/-- The WS less the work handed to it and not yet taken: its free cells, its queues and each host's part. -/
def State.wsHeld (s : State) : Ws := { s.ws with asks := [], fromFre := [] }

theorem wsHeld_of_ws {s u : State} (same : u.ws = s.ws) : u.wsHeld = s.wsHeld := by
  simp only [State.wsHeld, same]

@[simp] theorem onRsc_wsHeld (f : Rsc → Rsc) (s : State) : (s.onRsc f).wsHeld = s.wsHeld := rfl

@[simp] theorem onFre_wsHeld (f : Fre → Fre) (s : State) : (s.onFre f).wsHeld = s.wsHeld := rfl

@[simp] theorem askWs_wsHeld (asks : List QueueAsk) (s : State) : (askWs asks s).wsHeld = s.wsHeld := rfl

@[simp] theorem toWs_wsHeld (w : FreWork) (s : State) : (toWs w s).wsHeld = s.wsHeld := rfl

@[simp] theorem eventsFromRsc_wsHeld (es : List (HostId × Event)) (s : State) :
    (eventsFromRsc es s).wsHeld = s.wsHeld := rfl

@[simp] theorem engineEvents_wsHeld (st : EngineState) (k : Word) (s : State) :
    (engineEvents st k s).wsHeld = s.wsHeld := rfl

@[simp] theorem enact_wsHeld (r : BoundaryResult) (s : State) : (enact r s).wsHeld = s.wsHeld := rfl

@[simp] theorem openFrame_wsHeld (k : Word) (s : State) : (openFrame k s).wsHeld = s.wsHeld := rfl

@[simp] theorem noticeToRsc_wsHeld (k : Word) (s : State) : (noticeToRsc k s).wsHeld = s.wsHeld := rfl

@[simp] theorem closeRun_wsHeld (s : State) : (closeRun s).wsHeld = s.wsHeld := rfl

@[simp] theorem lockStep_wsHeld (rxd : Bool) (s : State) : (lockStep rxd s).wsHeld = s.wsHeld := rfl

@[simp] theorem answer_wsHeld (h : HostId) (res : Result) (p : List Byte) (s : State) :
    (answer h res p s).wsHeld = s.wsHeld := wsHeld_of_ws (answer_ws ..)

@[simp] theorem report_wsHeld (h : HostId) (c : Owners → Owners) (s : State) :
    (report h c s).wsHeld = s.wsHeld := wsHeld_of_ws (report_ws ..)

@[simp] theorem applyTraffic_ws (k : Word) (t : Option Traffic) (s : State) : (applyTraffic k t s).ws = s.ws := by
  obtain ⟨-, -, same, -⟩ := applyTraffic_rest s k t
  exact same

@[simp] theorem applyTraffic_wsHeld (k : Word) (t : Option Traffic) (s : State) :
    (applyTraffic k t s).wsHeld = s.wsHeld := wsHeld_of_ws (applyTraffic_ws ..)

@[simp] theorem offerAll_wsHeld (os : List Offer) (s : State) : (offerAll os s).wsHeld = s.wsHeld := by
  unfold offerAll
  split <;> rfl

@[simp] theorem loseLock_wsHeld (acq : Option Nat) (s : State) : (loseLock acq s).wsHeld = s.wsHeld := by
  unfold loseLock
  simp only []
  split <;> simp

@[simp] theorem confirmStep_wsHeld (k : Word) (r : BoundaryResult) (rxd : Bool) (s : State) :
    (confirmStep k r rxd s).wsHeld = s.wsHeld := by
  unfold confirmStep
  simp only []
  split <;> simp

@[simp] theorem releaseSlot_wsHeld (h : HostId) (role : Role) (mode : ReleaseMode) (s : State) (slot : Nat) :
    (releaseSlot h role mode s slot).wsHeld = s.wsHeld := by
  unfold releaseSlot
  split
  · split <;> rfl
  · rfl

@[simp] theorem renewSlot_ws (h : HostId) (role : Role) (s : State) (slot : Nat) :
    (renewSlot h role s slot).ws = s.ws := by
  unfold renewSlot
  split <;> rfl

@[simp] theorem foldl_releaseSlot_wsHeld (h : HostId) (role : Role) (mode : ReleaseMode) (slots : List Nat)
    (s : State) : (slots.foldl (releaseSlot h role mode) s).wsHeld = s.wsHeld :=
  List.foldlRecOn (motive := fun t => t.wsHeld = s.wsHeld) slots _ rfl
    fun t same slot _ => (releaseSlot_wsHeld h role mode t slot).trans same

@[simp] theorem foldl_renewSlot_ws (h : HostId) (role : Role) (slots : List Nat) (s : State) :
    (slots.foldl (renewSlot h role) s).ws = s.ws :=
  List.foldlRecOn (motive := fun t => t.ws = s.ws) slots _ rfl
    fun t same slot _ => (renewSlot_ws h role t slot).trans same

@[simp] theorem endTransaction_ws (h : HostId) (status : Byte) (stream : List Byte) (bits : Nat) (s : State) :
    (endTransaction h status stream bits s).ws = s.ws := rfl

@[simp] theorem endSelect_ws (h : HostId) (s : State) : (endSelect h s).ws = s.ws := rfl

@[simp] theorem keepReport_ws (h : HostId) (p : HostReport) (s : State) : (keepReport h p s).ws = s.ws := rfl

/-! ### Requests taken -/

theorem takeFair_ws {k : Kind} {h : HostId} {s t : State} {r : Request} (taken : takeFair k h s = some (r, t)) :
    t.ws = s.ws := by
  obtain ⟨-, -, rfl⟩ := takeFair_some.mp taken
  rfl

theorem takeGranted_ws {k : Kind} {h : HostId} {s t : State} {r : Request}
    (taken : takeGranted k s = some (h, r, t)) : t.ws = s.ws := by
  obtain ⟨-, -, rfl⟩ := takeGranted_some.mp taken
  rfl

/-! ### Steps that leave the WS as it is -/

section
variable {s u : State} {h : HostId}

theorem openingStep_ws (e : openingStep h s = some u) : u.ws = s.ws := by
  unfold openingStep at e
  split at e
  · cases e
  · cases e; rfl

theorem statusStep_ws {bits : Nat} (e : statusStep h bits s = some u) : u.ws = s.ws := by
  unfold statusStep at e
  split at e
  · split at e <;> (cases e; simp)
  · cases e

theorem collectStep_ws {bits : Nat} (e : collectStep h bits s = some u) : u.ws = s.ws := by
  unfold collectStep at e
  split at e
  · split at e
    · split at e
      · split at e
        · simp only [] at e
          split at e <;> (cases e; simp)
        · cases e; simp
      · cases e; simp
    · cases e; simp
  · cases e

theorem requestStep_ws {bytes : List Byte} {extraBits : Nat} (e : requestStep h bytes extraBits s = some u) :
    u.ws = s.ws := by
  unfold requestStep at e
  simp only [] at e
  split at e
  · exact statusStep_ws e
  · split at e
    · exact statusStep_ws e
    · split at e
      · exact collectStep_ws e
      · split at e
        · split at e <;> (cases e; simp)
        · cases e

theorem attachStep_ws (e : attachStep h s = some u) : u.ws = s.ws := by
  unfold attachStep at e
  split at e
  · split at e <;> (cases e; simp)
  · cases e

theorem detachStep_ws (e : detachStep h s = some u) : u.ws = s.ws := by
  unfold detachStep at e
  split at e
  · split at e
    · cases e
    · cases e; simp
    · split at e
      · cases e; simp
      · split at e
        · cases e
        · cases e; simp
  · cases e

theorem setAttentionStep_ws (e : setAttentionStep h s = some u) : u.ws = s.ws := by
  unfold setAttentionStep at e
  split at e
  · split at e
    · cases e; simp
    · split at e <;> (cases e; simp)
  · cases e

theorem renewStep_ws (e : renewStep s = some u) : u.ws = s.ws := by
  unfold renewStep at e
  split at e
  · rename_i taken
    rw [← takeGranted_ws taken]
    split at e
    · cases e; simp
    · split at e <;> (cases e; simp)
  · cases e

theorem querySlotStep_ws (e : querySlotStep s = some u) : u.ws = s.ws := by
  unfold querySlotStep at e
  split at e
  · rename_i taken
    rw [← takeGranted_ws taken]
    split at e
    · cases e; simp
    · split at e <;> (cases e; simp)
  · cases e

theorem formatStep_ws (e : formatStep h s = some u) : u.ws = s.ws := by
  unfold formatStep at e
  split at e
  · rename_i taken
    rw [← takeFair_ws taken]
    split at e
    · cases e; simp
    · split at e
      · cases e; simp
      · split at e
        · split at e <;> (cases e; simp)
        · cases e
  · cases e

theorem runStep_ws (e : runStep h s = some u) : u.ws = s.ws := by
  unfold runStep at e
  split at e
  · rename_i taken
    rw [← takeFair_ws taken]
    cases e; simp
  · cases e

theorem haltStep_ws (e : haltStep h s = some u) : u.ws = s.ws := by
  unfold haltStep at e
  split at e
  · rename_i taken
    rw [← takeFair_ws taken]
    cases e; simp
  · cases e

theorem queryEngineStep_ws (e : queryEngineStep h s = some u) : u.ws = s.ws := by
  unfold queryEngineStep at e
  split at e
  · rename_i taken
    rw [← takeFair_ws taken]
    cases e; simp
  · cases e

theorem queryHostStep_ws {parts : QueryParts} (e : queryHostStep h parts s = some u) : u.ws = s.ws := by
  unfold queryHostStep at e
  split at e
  · cases e
  · split at e
    · split at e
      · cases e; simp
      · cases e
    · simp only [] at e
      split at e
      · cases e
      · split at e <;> (cases e; simp [apply_ite State.ws])

theorem nextEventsStep_ws (e : nextEventsStep h s = some u) : u.ws = s.ws := by
  unfold nextEventsStep at e
  split at e
  · split at e <;> (cases e; simp)
  · cases e

theorem eventTakenStep_ws {src : Emitter} (e : eventTakenStep src h s = some u) : u.ws = s.ws := by
  unfold eventTakenStep at e
  split at e
  · cases e; rfl
  · cases e

theorem evuSessionEndStep_ws (e : evuSessionEndStep h s = some u) : u.ws = s.ws := by
  unfold evuSessionEndStep at e
  split at e
  · cases e; simp
  · cases e

theorem freSessionEndStep_ws (e : freSessionEndStep h s = some u) : u.ws = s.ws := by
  unfold freSessionEndStep at e
  split at e
  · cases e; simp
  · cases e

theorem expectedInstantStep_ws (e : expectedInstantStep s = some u) : u.ws = s.ws := by
  unfold expectedInstantStep at e
  split at e
  · cases e; rfl
  · cases e

theorem bitClockStep_ws {edge : Edge} {hfsync rxd : Bool} (e : bitClockStep edge hfsync rxd s = some u) :
    u.ws = s.ws := by
  unfold bitClockStep at e
  split at e
  · cases e
  · cases e; rfl
  all_goals
    split at e
    all_goals cases e
    all_goals rfl

/-! ### Steps that only hand the WS work -/

theorem releaseStep_wsHeld (e : releaseStep s = some u) : u.wsHeld = s.wsHeld := by
  unfold releaseStep at e
  split at e
  · rename_i taken
    rw [← wsHeld_of_ws (takeGranted_ws taken)]
    split at e
    · cases e; simp
    · split at e <;> (cases e; simp)
  · cases e

theorem rscSessionEndStep_wsHeld (e : rscSessionEndStep h s = some u) : u.wsHeld = s.wsHeld := by
  unfold rscSessionEndStep at e
  split at e
  · cases e; simp
  · cases e

theorem boundaryStep_wsHeld (e : boundaryStep s = some u) : u.wsHeld = s.wsHeld := by
  unfold boundaryStep at e
  split at e
  · cases e
  · split at e
    · cases e; simp
    · cases e; simp
    · cases e

theorem expireNext_wsHeld {k : Word} {ls : List ListenerHost} {first rest : List ClaimRec}
    (e : expireNext k ls first rest s = some u) : u.wsHeld = s.wsHeld := by
  unfold expireNext at e
  split at e
  · cases e; simp
  · cases e

theorem leaseExpiryStep_wsHeld (e : leaseExpiryStep s = some u) : u.wsHeld = s.wsHeld := by
  unfold leaseExpiryStep at e
  split at e
  · cases e
  · split at e
    · exact expireNext_wsHeld e
    · exact (expireNext_wsHeld e :)
    · cases e

theorem leadInEndStep_wsHeld (e : leadInEndStep s = some u) : u.wsHeld = s.wsHeld := by
  unfold leadInEndStep at e
  split at e
  · cases e; simp
  · cases e

theorem frameBoundaryStep_wsHeld (e : frameBoundaryStep s = some u) : u.wsHeld = s.wsHeld := by
  unfold frameBoundaryStep at e
  simp only [] at e
  split at e
  · split at e <;> (cases e; simp)
  · cases e

theorem frameSyncStep_wsHeld {rxd : Bool} (e : frameSyncStep rxd s = some u) : u.wsHeld = s.wsHeld := by
  unfold frameSyncStep at e
  split at e
  · split at e
    · cases e
    · split at e <;> (cases e; simp)
    all_goals
      split at e
      · split at e
        · cases e; simp
        · cases e
        · cases e; simp
      · cases e
  · cases e

theorem missingSyncStep_wsHeld {hfsync : Bool} (e : missingSyncStep hfsync s = some u) :
    u.wsHeld = s.wsHeld := by
  unfold missingSyncStep at e
  split at e
  · split at e
    · cases e; simp
    · cases e
  · cases e
  · cases e

theorem slotEndStep_wsHeld {hfsync rxd : Bool} (e : slotEndStep hfsync rxd s = some u) :
    u.wsHeld = s.wsHeld := by
  unfold slotEndStep at e
  split at e
  · cases e; simp
  · cases e

end

end Sys2Proof.Machine
end

section
/-! O46: the cell law (R101, R102). A step that reaches the cells stores or removes for one host and counts the same
number, or changes no count and stores as much for every host. -/

namespace Sys2Proof.Machine

open Sys2Proof.Safety

/-! ### The law in terms of what is stored -/

/-- What is stored for a host: its transmit entries and its receive records (R101). -/
def storedFor (s : State) (h : HostId) : Nat := txEntries s.ws.queues h + (s.store h).rxq.length

/-- The counts of the cell law stand: the free cells, and each host's held count and quota. -/
structure CountsKept (s u : State) : Prop where
  free  : u.ws.free = s.ws.free
  held  : ∀ g, (u.store g).held = (s.store g).held
  quota : ∀ g, (u.store g).quota = (s.store g).quota

theorem heldIs_iff {s : State} {h : HostId} : heldIs s h ↔ (s.store h).held = storedFor s h := Iff.rfl

theorem held_eq_storedFor {s : State} (law : CellLaw s) (h : HostId) : (s.store h).held = storedFor s h := by
  obtain ⟨counted, -, -, -⟩ := law
  exact heldIs_iff.mp (counted h)

theorem held_le_quota {s : State} (law : CellLaw s) (h : HostId) : (s.store h).held ≤ (s.store h).quota := by
  obtain ⟨-, -, within, -⟩ := law
  exact within h

theorem sumHosts_congr {f f' : HostId → Nat} (same : ∀ g, f' g = f g) : sumHosts f' = sumHosts f := by
  simp only [sumHosts, same]

/-- A sum over the hosts in which one host's term has changed. -/
theorem sumHosts_change {f f' : HostId → Nat} {h : HostId} (others : ∀ g, g ≠ h → f' g = f g) :
    sumHosts f' + f h = sumHosts f + f' h := by
  have at0 := others .h0
  have at1 := others .h1
  have at2 := others .h2
  have at3 := others .h3
  cases h <;> simp only [ne_eq, reduceCtorEq, not_false_eq_true, forall_const] at at0 at1 at2 at3 <;>
    simp only [sumHosts] <;> omega

/-- The unallocated pool is what the quotas leave of the cells (R102). -/
theorem pool_eq (s : State) : pool s.ws = Config.cells - sumHosts fun h => (s.store h).quota := rfl

/-- No count changes and as much is stored for every host. -/
theorem CountsKept.cellLaw {s u : State} (law : CellLaw s) (kept : CountsKept s u)
    (stored : ∀ g, storedFor u g = storedFor s g) : CellLaw u := by
  obtain ⟨counted, total, within, quotas⟩ := law
  refine ⟨fun g => ?_, ?_, fun g => ?_, ?_⟩
  · rw [heldIs_iff, kept.held, stored]; exact counted g
  · rw [kept.free, sumHosts_congr kept.held]; exact total
  · rw [kept.held, kept.quota]; exact within g
  · rw [sumHosts_congr kept.quota]; exact quotas

theorem cellLaw_of_wsHeld {s u : State} (law : CellLaw s) (same : u.wsHeld = s.wsHeld) : CellLaw u := by
  have free : u.ws.free = s.ws.free := congrArg (·.free) same
  have hosts : u.ws.hosts = s.ws.hosts := congrArg (·.hosts) same
  have queues : u.ws.queues = s.ws.queues := congrArg (·.queues) same
  have store (g : HostId) : u.store g = s.store g := congrArg (Quad.get · g) hosts
  exact CountsKept.cellLaw law ⟨free, fun g => by rw [store], fun g => by rw [store]⟩
    fun g => by rw [storedFor, storedFor, queues, store]

theorem cellLaw_of_ws {s u : State} (law : CellLaw s) (same : u.ws = s.ws) : CellLaw u :=
  cellLaw_of_wsHeld law (wsHeld_of_ws same)

theorem cellLaw_answer {s : State} (h : HostId) (res : Result) (p : List Byte) (law : CellLaw s) :
    CellLaw (answer h res p s) := cellLaw_of_ws law (answer_ws ..)

theorem cellLaw_reset : CellLaw State.reset :=
  ⟨fun h => by cases h <;> rfl, rfl, fun h => by cases h <;> decide, by decide⟩

/-- Between the two states cells moved between the pool and host h alone: no quota changes, and no other host's count or
store. -/
structure MovedFor (h : HostId) (s u : State) : Prop where
  quota  : ∀ g, (u.store g).quota = (s.store g).quota
  held   : ∀ g, g ≠ h → (u.store g).held = (s.store g).held
  stored : ∀ g, g ≠ h → storedFor u g = storedFor s g

/-- Cells moved for one host: the law asks that the host's count is again what is stored for it, that held and free
cells changed by opposite amounts, and that the host stays in its quota. -/
theorem MovedFor.cellLaw {s u : State} {h : HostId} (law : CellLaw s) (moved : MovedFor h s u)
    (counted : (u.store h).held = storedFor u h)
    (balance : u.ws.free + (u.store h).held = s.ws.free + (s.store h).held)
    (within : (u.store h).held ≤ (s.store h).quota) : CellLaw u := by
  obtain ⟨countedBefore, total, withinBefore, quotas⟩ := law
  have heldSum : sumHosts (fun g => (u.store g).held) + (s.store h).held =
      sumHosts (fun g => (s.store g).held) + (u.store h).held := sumHosts_change moved.held
  refine ⟨fun g => ?_, by omega, fun g => ?_, ?_⟩
  · by_cases own : g = h
    · rw [own]; exact counted
    · rw [heldIs_iff, moved.held g own, moved.stored g own]; exact countedBefore g
  · rw [moved.quota]
    by_cases own : g = h
    · rw [own]; exact within
    · rw [moved.held g own]; exact withinBefore g
  · rw [sumHosts_congr moved.quota]; exact quotas

/-! ### Charging and giving back -/

/-- A change of host h's held count alone, after a change of what is stored for it. -/
theorem movedFor_of_kept {s u v : State} {h : HostId} (kept : CountsKept s u)
    (others : ∀ g, g ≠ h → storedFor u g = storedFor s g) (away : ∀ g, g ≠ h → v.store g = u.store g)
    (queues : v.ws.queues = u.ws.queues) (quota : (v.store h).quota = (u.store h).quota) : MovedFor h s v where
  quota g := by
    by_cases own : g = h
    · rw [own, quota, kept.quota]
    · rw [away g own, kept.quota]
  held g own := by rw [away g own, kept.held]
  stored g own := by rw [← others g own, storedFor, storedFor, away g own, queues]

@[simp] theorem storedFor_giveBack (h g : HostId) (n : Nat) (s : State) :
    storedFor (giveBack h n s) g = storedFor s g := by
  by_cases own : g = h
  · simp [storedFor, own]
  · simp [storedFor, giveBack_store_ne n s own]

@[simp] theorem storedFor_charge (h g : HostId) (n : Nat) (s : State) :
    storedFor (charge h n s) g = storedFor s g := by
  by_cases own : g = h
  · simp [storedFor, own]
  · simp [storedFor, charge_store_ne n s own]

/-- R104: where `n` fewer are stored for a host, giving `n` cells back restores the law. -/
theorem giveBack_cellLaw {s u : State} {h : HostId} {n : Nat} (law : CellLaw s) (kept : CountsKept s u)
    (others : ∀ g, g ≠ h → storedFor u g = storedFor s g) (removed : storedFor u h + n = storedFor s h) :
    CellLaw (giveBack h n u) := by
  have counted := held_eq_storedFor law h
  have within := held_le_quota law h
  have held := kept.held h
  have free := kept.free
  refine (movedFor_of_kept kept others (fun _ => giveBack_store_ne n u) rfl (by simp)).cellLaw law ?_ ?_ ?_
  all_goals
    simp only [giveBack_store_self, storedFor_giveBack, giveBack_free]
    omega

/-- A host's cells up to its quota are free: the quotas together are at most the cells (R102). -/
theorem held_add_le_free {s : State} {h : HostId} {n : Nat} (law : CellLaw s)
    (room : (s.store h).held + n ≤ (s.store h).quota) : n ≤ s.ws.free := by
  obtain ⟨-, total, within, quotas⟩ := law
  have within0 := within .h0
  have within1 := within .h1
  have within2 := within .h2
  have within3 := within .h3
  simp only [sumHosts] at total quotas
  cases h <;> omega

/-- R103: where `n` more are stored for a host with room for them in its quota, charging `n` cells restores the law. -/
theorem charge_cellLaw {s u : State} {h : HostId} {n : Nat} (law : CellLaw s) (kept : CountsKept s u)
    (others : ∀ g, g ≠ h → storedFor u g = storedFor s g) (added : storedFor u h = storedFor s h + n)
    (room : (s.store h).held + n ≤ (s.store h).quota) : CellLaw (charge h n u) := by
  have counted := held_eq_storedFor law h
  have enough := held_add_le_free law room
  have held := kept.held h
  have free := kept.free
  refine (movedFor_of_kept kept others (fun _ => charge_store_ne n u) rfl (by simp)).cellLaw law ?_ ?_ ?_
  all_goals
    simp only [charge_store_self, storedFor_charge, charge_free]
    omega

end Sys2Proof.Machine
end

section
/-! O46: the shared operations keep the cell law: changes to the flags, to a quota, to the transmit and the receive
queues (R103 to R108, R112, R138). -/

namespace Sys2Proof.Machine

open Sys2Proof.Safety

/-! ### Changes to a host's part that leave its cells -/

/-- The change leaves a host's quota, held count and receive queue. -/
def KeepsCells (f : WsHost → WsHost) : Prop :=
  ∀ c, (f c).quota = c.quota ∧ (f c).held = c.held ∧ (f c).rxq = c.rxq

theorem onStores_cellLaw {s : State} {f : HostId → WsHost → WsHost} (law : CellLaw s)
    (keeps : ∀ h, KeepsCells (f h)) : CellLaw (s.onStores f) := by
  refine CountsKept.cellLaw law ⟨rfl, fun g => ?_, fun g => ?_⟩ fun g => ?_
  all_goals
    obtain ⟨quota, held, rxq⟩ := keeps g (s.store g)
    simp [storedFor, quota, held, rxq]

theorem onStore_eq_onStores (s : State) (h : HostId) (f : WsHost → WsHost) :
    s.onStore h f = s.onStores fun g c => if g = h then f c else c := by
  cases h <;> rfl

theorem onStore_cellLaw {s : State} {h : HostId} {f : WsHost → WsHost} (law : CellLaw s) (keeps : KeepsCells f) :
    CellLaw (s.onStore h f) := by
  rw [onStore_eq_onStores]
  refine onStores_cellLaw law fun g c => ?_
  split
  · exact keeps c
  · exact ⟨rfl, rfl, rfl⟩

/-- R112: a quota may change to any value that is not below the held count and that the pool can cover. -/
theorem setQuota_cellLaw {s : State} {h : HostId} {q : Nat} (law : CellLaw s) (enough : (s.store h).held ≤ q)
    (covered : q ≤ (s.store h).quota ∨ q - (s.store h).quota ≤ pool s.ws) :
    CellLaw (s.onStore h fun c => { c with quota := q }) := by
  obtain ⟨counted, total, within, quotas⟩ := law
  have store (g : HostId) : (s.onStore h fun c => { c with quota := q }).store g =
      { s.store g with quota := if g = h then q else (s.store g).quota } := by
    by_cases own : g = h
    · subst own; simp
    · simp [State.onStore_store_ne s _ own, own]
  have quotaSum : sumHosts (fun g => if g = h then q else (s.store g).quota) + (s.store h).quota =
      sumHosts (fun g => (s.store g).quota) + q := by
    simpa using sumHosts_change (h := h) (f := fun g => (s.store g).quota)
      (f' := fun g => if g = h then q else (s.store g).quota) fun g own => if_neg own
  rw [pool_eq] at covered
  refine ⟨fun g => ?_, ?_, fun g => ?_, ?_⟩
  · simpa [heldIs, store] using counted g
  · simpa [store] using total
  · rw [store]
    by_cases own : g = h
    · simpa [own] using enough
    · simpa [own] using within g
  · simp only [store]
    omega

/-! ### Changes to the transmit queues -/

theorem onQueues_countsKept (s : State) (f : List TxQueue → List TxQueue) : CountsKept s (s.onQueues f) :=
  ⟨rfl, fun _ => rfl, fun _ => rfl⟩

theorem onQueues_cellLaw {s : State} {f : List TxQueue → List TxQueue} (law : CellLaw s)
    (same : ∀ g, txEntries (f s.ws.queues) g = txEntries s.ws.queues g) : CellLaw (s.onQueues f) :=
  (onQueues_countsKept s f).cellLaw law fun g => by simp [storedFor, same]

/-- R104: `n` entries of a host leave the transmit queues and `n` cells are given back. -/
theorem giveBack_onQueues_cellLaw {s : State} {h : HostId} {n : Nat} {qs : List TxQueue} (law : CellLaw s)
    (others : ∀ g, g ≠ h → txEntries qs g = txEntries s.ws.queues g)
    (removed : txEntries qs h + n = txEntries s.ws.queues h) : CellLaw (giveBack h n (s.onQueues fun _ => qs)) := by
  refine giveBack_cellLaw law (onQueues_countsKept s _) (fun g own => ?_) ?_
  · simp [storedFor, others g own]
  · simp only [storedFor, State.onQueues_queues, State.onQueues_store]
    omega

theorem onQueues_changeFirst {s : State} {p : TxQueue → Bool} {f : TxQueue → TxQueue} {a b : List TxQueue}
    {q : TxQueue} (e : s.ws.queues = a ++ q :: b) (no : ∀ x ∈ a, p x = false) (yes : p q = true) :
    s.onQueues (changeFirst p f) = s.onQueues fun _ => a ++ f q :: b := by
  simp only [State.onQueues, e, changeFirst_append no yes]

theorem loadHead_cellLaw {s : State} (id : Nat) (h : HostId) (law : CellLaw s) : CellLaw (loadHead id h s) := by
  cases x : entriesOf s.ws.queues id h with
  | nil => simpa only [loadHead, x] using law
  | cons e es =>
    obtain ⟨a, q, b, queues, rfl, rfl, entries, no⟩ := entriesOf_cons x
    rw [loadHead_eq x, onQueues_changeFirst queues no (by simp [TxQueue.isOf])]
    refine giveBack_onQueues_cellLaw law (fun g own => ?_) ?_
    · simp [queues, own.symm]
    · simp only [queues, entries, txEntries_append, txEntries_cons, if_true, List.tail_cons, List.length_cons]
      omega

/-- R107: a flush. -/
theorem flushQueue_cellLaw {s : State} (id : Nat) (law : CellLaw s) : CellLaw (flushQueue id s) := by
  cases found : s.ws.queues.find? fun q => decide (q.id = id) with
  | none => rw [flushQueue_ended (by simpa using found)]; exact law
  | some q =>
    obtain ⟨a, b, queues, yes, no⟩ := exists_first found
    rw [flushQueue_eq queues (of_decide_eq_true yes) fun x m => of_decide_eq_false (no x m)]
    refine giveBack_onQueues_cellLaw law (fun g own => ?_) ?_
    · simp [queues, own.symm]
    · simp only [queues, txEntries_append, txEntries_cons, if_true, List.length_nil]
      omega

/-- R108: an ending. -/
theorem endQueue_cellLaw {s : State} (id : Nat) (law : CellLaw s) : CellLaw (endQueue id s) := by
  cases found : s.ws.queues.find? fun q => decide (q.id = id) with
  | none => rw [endQueue_ended (by simpa using found)]; exact law
  | some q =>
    obtain ⟨a, b, queues, yes, no⟩ := exists_first found
    rw [endQueue_eq queues (of_decide_eq_true yes) fun x m => of_decide_eq_false (no x m)]
    refine giveBack_onQueues_cellLaw law (fun g own => ?_) ?_
    · simp [queues, own.symm]
    · simp only [queues, txEntries_append, txEntries_cons, if_true]
      omega

/-- R103, R121: entries appended within the quota; where no queue of the record stands nothing is stored or charged. -/
theorem appendEntries_cellLaw {s : State} (id : Nat) {h : HostId} {es : List TxEntry} (law : CellLaw s)
    (room : (s.store h).held + es.length ≤ (s.store h).quota) : CellLaw (appendEntries id h es s) := by
  cases found : s.ws.queues.find? (TxQueue.isOf id h) with
  | none =>
    have none : s.ws.queues.any (TxQueue.isOf id h) = false := by simpa using found
    simpa [appendEntries, none] using law
  | some q =>
    obtain ⟨a, b, queues, yes, no⟩ := exists_first found
    obtain ⟨rfl, rfl⟩ : q.id = id ∧ q.owner = h := of_decide_eq_true yes
    rw [appendEntries_eq ⟨q, by simp [queues], rfl, rfl⟩, onQueues_changeFirst queues no yes]
    refine charge_cellLaw law (onQueues_countsKept s _) (fun g own => ?_) ?_ room
    · simp [storedFor, queues, own.symm]
    · simp only [storedFor, State.onQueues_queues, State.onQueues_store, queues, txEntries_append, txEntries_cons,
        if_true, List.length_append]
      omega

/-- R2, R106: a new record's queue stands empty. -/
theorem createRecord_cellLaw {s : State} (h : HostId) (session : Byte) (a : ClaimArgs) (slot : Nat)
    (law : CellLaw s) : CellLaw (createRecord h session a s slot) := by
  unfold createRecord
  simp only []
  split
  · exact onQueues_cellLaw (cellLaw_of_ws law rfl) fun g => by simp
  · exact cellLaw_of_ws law rfl

/-! ### Changes to the receive queues -/

theorem CountsKept.refl (s : State) : CountsKept s s := ⟨rfl, fun _ => rfl, fun _ => rfl⟩

theorem CountsKept.onStore {s u : State} (h : HostId) {f : WsHost → WsHost} (kept : CountsKept s u)
    (keeps : ∀ c, (f c).quota = c.quota ∧ (f c).held = c.held) : CountsKept s (u.onStore h f) := by
  refine ⟨kept.free, fun g => ?_, fun g => ?_⟩
  all_goals by_cases own : g = h
  · rw [own, State.onStore_store_self, (keeps _).2, kept.held]
  · rw [State.onStore_store_ne u f own, kept.held]
  · rw [own, State.onStore_store_self, (keeps _).1, kept.quota]
  · rw [State.onStore_store_ne u f own, kept.quota]

theorem storedFor_onStore_ne (s : State) {h g : HostId} (f : WsHost → WsHost) (own : g ≠ h) :
    storedFor (s.onStore h f) g = storedFor s g := by
  simp only [storedFor, State.onStore_queues, State.onStore_store_ne s f own]

/-- R138: an offer taken is charged where the host has room for it, and stored nowhere else. -/
theorem takeOffer_cellLaw {s : State} (o : Offer) (law : CellLaw s) : CellLaw (takeOffer o s) := by
  unfold takeOffer
  simp only []
  split
  · exact onStore_cellLaw law fun _ => ⟨rfl, rfl, rfl⟩
  · split
    · exact law
    · split
      · refine cellLaw_of_ws ?_ (eventFromWs_ws ..)
        exact onStore_cellLaw law fun _ => ⟨rfl, rfl, rfl⟩
      · rename_i room
        refine charge_cellLaw law ((CountsKept.refl s).onStore _ fun _ => ⟨rfl, rfl⟩)
          (fun g own => storedFor_onStore_ne s _ own) ?_ (by omega)
        simp [storedFor]
        omega

end Sys2Proof.Machine
end

section
/-! O46: each command keeps the cell law. -/

namespace Sys2Proof.Machine

open Sys2Proof.Safety

/-- R110: a host's transmit queues flushed hold nothing of it, and the other hosts' all they held. -/
theorem txEntries_flushOwner (h g : HostId) (qs : List TxQueue) :
    txEntries (flushOwner h qs) g = if g = h then 0 else txEntries qs g := by
  induction qs with
  | nil => simp [flushOwner]
  | cons q qs ih =>
    simp only [flushOwner, List.map_cons, txEntries_cons] at ih ⊢
    rw [ih]
    by_cases own : q.owner = h
    · by_cases other : g = h
      · simp [own, other]
      · simp [own, other, Ne.symm other]
    · by_cases other : g = h
      · subst other; simp [own]
      · simp [own, other]

/-! ### The steps that reach the cells -/

section
variable {s u : State} {h : HostId}

theorem claimStep_cellLaw (law : CellLaw s) (e : claimStep s = some u) : CellLaw u := by
  unfold claimStep at e
  split at e
  · rename_i taken
    have lawTaken := cellLaw_of_ws law (takeGranted_ws taken)
    split at e
    · cases e; exact cellLaw_answer _ _ _ lawTaken
    · split at e
      · cases e; exact cellLaw_answer _ _ _ lawTaken
      · cases e
        exact cellLaw_answer _ _ _
          (List.foldlRecOn _ _ lawTaken fun t lawNow slot _ => createRecord_cellLaw _ _ _ slot lawNow)
  · cases e

/-- R112's two checks are what the law asks of the new quota. -/
theorem setQuotaStep_cellLaw (law : CellLaw s) (e : setQuotaStep h s = some u) : CellLaw u := by
  unfold setQuotaStep at e
  split at e
  · rename_i taken
    obtain ⟨-, -, rfl⟩ := takeFair_some.mp taken
    have lawTaken := cellLaw_of_ws law (takeFair_ws taken)
    split at e
    · cases e; exact cellLaw_answer _ _ _ lawTaken
    · split at e
      · cases e; exact cellLaw_answer _ _ _ lawTaken
      · rename_i enough
        split at e
        · cases e; exact cellLaw_answer _ _ _ lawTaken
        · rename_i covered
          cases e
          refine cellLaw_answer _ _ _ (setQuota_cellLaw lawTaken ?_ ?_)
          · rw [markServed_store]; omega
          · rw [markServed_store, markServed_ws]; omega
  · cases e

theorem writeTo_cellLaw {slot : Nat} {es : List TxEntry} (law : CellLaw s) : CellLaw (writeTo h slot es s) := by
  unfold writeTo
  split
  · split <;> exact cellLaw_answer _ _ _ law
  · split
    · exact cellLaw_answer _ _ _ law
    · simp only []
      split
      · exact cellLaw_answer _ _ _ law
      · split
        · exact cellLaw_answer _ _ _ law
        · rename_i room
          refine cellLaw_answer _ _ _ (appendEntries_cellLaw _ (cellLaw_of_ws law rfl) ?_)
          rw [State.onRsc_store]
          omega

theorem writeWordsStep_cellLaw (law : CellLaw s) (e : writeWordsStep h s = some u) : CellLaw u := by
  unfold writeWordsStep at e
  split at e
  · split at e
    · rename_i taken
      have lawTaken := cellLaw_of_ws law (takeFair_ws taken)
      split at e
      · cases e; exact cellLaw_answer _ _ _ lawTaken
      · cases e; exact writeTo_cellLaw lawTaken
    · cases e
  · cases e

theorem readWordsStep_cellLaw (law : CellLaw s) (e : readWordsStep h s = some u) : CellLaw u := by
  unfold readWordsStep at e
  split at e
  · rename_i taken
    obtain ⟨-, -, rfl⟩ := takeFair_some.mp taken
    have lawTaken := cellLaw_of_ws law (takeFair_ws taken)
    split at e
    · cases e; exact cellLaw_answer _ _ _ lawTaken
    · cases e
      refine cellLaw_answer _ _ _ (giveBack_cellLaw lawTaken ((CountsKept.refl _).onStore h fun _ => ⟨rfl, rfl⟩)
        (fun g own => storedFor_onStore_ne _ _ own) ?_)
      simp only [storedFor, State.onStore_queues, State.onStore_store_self, markServed_store, markServed_ws,
        List.length_drop, List.length_take]
      omega
  · cases e

theorem clearOverflowStep_cellLaw (law : CellLaw s) (e : clearOverflowStep h s = some u) : CellLaw u := by
  unfold clearOverflowStep at e
  split at e
  · rename_i taken
    have lawTaken := cellLaw_of_ws law (takeFair_ws taken)
    simp only [] at e
    split at e
    · cases e; exact cellLaw_answer _ _ _ (onStore_cellLaw lawTaken fun _ => ⟨rfl, rfl, rfl⟩)
    · cases e; exact cellLaw_answer _ _ _ lawTaken
  · cases e

/-- R110: everything stored for the host goes, and as many cells are given back. -/
theorem wsSessionEndStep_cellLaw (law : CellLaw s) (e : wsSessionEndStep h s = some u) : CellLaw u := by
  unfold wsSessionEndStep at e
  split at e
  · cases e
    refine cellLaw_of_ws ?_ (report_ws ..)
    have flushed : CountsKept s ((passOver h s).onQueues (flushOwner h)) := ⟨rfl, fun _ => rfl, fun _ => rfl⟩
    refine giveBack_cellLaw law (flushed.onStore h fun _ => ⟨rfl, rfl⟩) (fun g own => ?_) ?_
    · simp [storedFor, State.onStore_store_ne _ _ own, txEntries_flushOwner, own]
    · simp [storedFor, txEntries_flushOwner]
  · cases e

theorem putSlot_cellLaw (p : SlotPlan) (law : CellLaw s) : CellLaw (putSlot p s) := by
  obtain ⟨same, -⟩ | ⟨id, owner, -, loaded⟩ := putSlot_ws p s
  · exact cellLaw_of_ws law same
  · exact cellLaw_of_ws (loadHead_cellLaw id owner law) loaded

theorem slotStartStep_cellLaw (law : CellLaw s) (e : slotStartStep s = some u) : CellLaw u := by
  unfold slotStartStep at e
  split at e
  · rename_i slot _
    split at e
    · simp only [] at e
      have put := cellLaw_of_ws (putSlot_cellLaw (planSlot s s.rsc.map s.rsc.records slot) law)
        (applyTraffic_ws s.fre.frame (planSlot s s.rsc.map s.rsc.records slot).traffic _)
      split at e
      · cases e; exact put
      · cases e; exact cellLaw_of_ws put rfl
    · cases e
  · cases e

theorem awaitingStep_cellLaw (law : CellLaw s) (e : awaitingStep s = some u) : CellLaw u := by
  unfold awaitingStep at e
  split at e
  · simp only [] at e
    split at e
    · cases e
      refine cellLaw_of_ws (putSlot_cellLaw _ ?_) (State.onFre_ws ..)
      exact cellLaw_of_ws law rfl
    · cases e; exact cellLaw_of_ws law rfl
  · cases e

theorem rxOfferStep_cellLaw (law : CellLaw s) (e : rxOfferStep h s = some u) : CellLaw u := by
  unfold rxOfferStep at e
  split at e
  · split at e
    · cases e; exact takeOffer_cellLaw _ (cellLaw_of_wsHeld law rfl)
    · cases e
  · cases e

theorem lossNoticeStep_cellLaw (law : CellLaw s) (e : lossNoticeStep s = some u) : CellLaw u := by
  unfold lossNoticeStep at e
  split at e
  · cases e
    refine onStores_cellLaw (cellLaw_of_wsHeld law rfl) fun g c => ?_
    split <;> exact ⟨rfl, rfl, rfl⟩
  · cases e

theorem wsBoundaryStep_cellLaw (law : CellLaw s) (e : wsBoundaryStep s = some u) : CellLaw u := by
  unfold wsBoundaryStep at e
  split at e
  · cases e
    refine onStores_cellLaw (cellLaw_of_wsHeld law rfl) fun g c => ?_
    split <;> exact ⟨rfl, rfl, rfl⟩
  · cases e

theorem queueFlushStep_cellLaw {id : Nat} (law : CellLaw s) (e : queueFlushStep id s = some u) : CellLaw u := by
  unfold queueFlushStep at e
  split at e
  · cases e; exact flushQueue_cellLaw id (cellLaw_of_wsHeld law rfl)
  · cases e

theorem queueEndingStep_cellLaw {id : Nat} (law : CellLaw s) (e : queueEndingStep id s = some u) : CellLaw u := by
  unfold queueEndingStep at e
  split at e
  · cases e; exact endQueue_cellLaw id (cellLaw_of_wsHeld law rfl)
  · cases e

end

/-! ### Every command -/

section
variable {s t : State} {o : Option State} (law : CellLaw s) (ran : settle s o = .next t)

include law ran

theorem settle_cellLaw (keeps : ∀ {u}, o = some u → CellLaw u) : CellLaw t := by
  obtain ⟨u, stepped, rfl⟩ | ⟨-, rfl⟩ := settle_next ran
  · exact cellLaw_of_ws (keeps stepped) (State.refreshAtn_ws u)
  · exact law

theorem settle_cellLaw_of_ws (keeps : ∀ {u}, o = some u → u.ws = s.ws) : CellLaw t :=
  settle_cellLaw law ran fun stepped => cellLaw_of_ws law (keeps stepped)

theorem settle_cellLaw_of_wsHeld (keeps : ∀ {u}, o = some u → u.wsHeld = s.wsHeld) : CellLaw t :=
  settle_cellLaw law ran fun stepped => cellLaw_of_wsHeld law (keeps stepped)

end

theorem exec_cellLaw {s t : State} (c : Instr) (law : CellLaw s) (ran : exec c s = .next t) : CellLaw t := by
  cases c with
  | status => exact settle_cellLaw_of_ws law ran statusStep_ws
  | collect => exact settle_cellLaw_of_ws law ran collectStep_ws
  | requestFrame => exact settle_cellLaw_of_ws law ran requestStep_ws
  | attach => exact settle_cellLaw_of_ws law ran attachStep_ws
  | detach => exact settle_cellLaw_of_ws law ran detachStep_ws
  | setAttention => exact settle_cellLaw_of_ws law ran setAttentionStep_ws
  | claim => exact settle_cellLaw law ran (claimStep_cellLaw law)
  | release => exact settle_cellLaw_of_wsHeld law ran releaseStep_wsHeld
  | renew => exact settle_cellLaw_of_ws law ran renewStep_ws
  | querySlot => exact settle_cellLaw_of_ws law ran querySlotStep_ws
  | format => exact settle_cellLaw_of_ws law ran formatStep_ws
  | run => exact settle_cellLaw_of_ws law ran runStep_ws
  | halt => exact settle_cellLaw_of_ws law ran haltStep_ws
  | queryEngine => exact settle_cellLaw_of_ws law ran queryEngineStep_ws
  | setQuota => exact settle_cellLaw law ran (setQuotaStep_cellLaw law)
  | queryHost => exact settle_cellLaw_of_ws law ran queryHostStep_ws
  | writeWords => exact settle_cellLaw law ran (writeWordsStep_cellLaw law)
  | readWords => exact settle_cellLaw law ran (readWordsStep_cellLaw law)
  | clearOverflow => exact settle_cellLaw law ran (clearOverflowStep_cellLaw law)
  | nextEvents => exact settle_cellLaw_of_ws law ran nextEventsStep_ws
  | rscSessionEnd => exact settle_cellLaw_of_wsHeld law ran rscSessionEndStep_wsHeld
  | wsSessionEnd => exact settle_cellLaw law ran (wsSessionEndStep_cellLaw law)
  | evuSessionEnd => exact settle_cellLaw_of_ws law ran evuSessionEndStep_ws
  | freSessionEnd => exact settle_cellLaw_of_ws law ran freSessionEndStep_ws
  | boundaryProcedure => exact settle_cellLaw_of_wsHeld law ran boundaryStep_wsHeld
  | leaseExpiry => exact settle_cellLaw_of_wsHeld law ran leaseExpiryStep_wsHeld
  | awaitingConfirmationNotice => exact settle_cellLaw law ran (awaitingStep_cellLaw law)
  | leadInEnd => exact settle_cellLaw_of_wsHeld law ran leadInEndStep_wsHeld
  | frameBoundary => exact settle_cellLaw_of_wsHeld law ran frameBoundaryStep_wsHeld
  | expectedInstant => exact settle_cellLaw_of_ws law ran expectedInstantStep_ws
  | frameSync => exact settle_cellLaw_of_wsHeld law ran frameSyncStep_wsHeld
  | missingSync => exact settle_cellLaw_of_wsHeld law ran missingSyncStep_wsHeld
  | slotStart => exact settle_cellLaw law ran (slotStartStep_cellLaw law)
  | slotEnd => exact settle_cellLaw_of_wsHeld law ran slotEndStep_wsHeld
  | rxOffer => exact settle_cellLaw law ran (rxOfferStep_cellLaw law)
  | lossNotice => exact settle_cellLaw law ran (lossNoticeStep_cellLaw law)
  | wsBoundaryNotice => exact settle_cellLaw law ran (wsBoundaryStep_cellLaw law)
  | eventTaken => exact settle_cellLaw_of_ws law ran eventTakenStep_ws
  | queueFlush => exact settle_cellLaw law ran (queueFlushStep_cellLaw law)
  | queueEnding => exact settle_cellLaw law ran (queueEndingStep_cellLaw law)
  | partReset =>
    cases ran
    exact cellLaw_of_ws cellLaw_reset rfl
  | transactionOpening => exact settle_cellLaw_of_ws law ran openingStep_ws
  | bitClock => exact settle_cellLaw_of_ws law ran bitClockStep_ws
  | refclkStop => exact nomatch ran

/-- Settles O46: every command keeps the cell law, whichever stands at the front of the queue. -/
theorem cellLawIsKept : Obligations.CellLawIsKept := by
  intro s t law stepped
  unfold step at stepped
  split at stepped
  · rename_i c rest _
    exact exec_cellLaw c (cellLaw_of_ws (u := { s with pending := rest }) law rfl) stepped
  · cases stepped; exact law

end Sys2Proof.Machine
end

section
/-! O53: RX_OFFER (R138, R135, R136, R141). The step is split in two: the work the FRE leaves once the offer is taken,
and the WS's action on the offer, in R138's four conditions. -/

namespace Sys2Proof.Machine

open Sys2Proof.Safety

/-! ### What the taking leaves -/

/-- The FRE's work for the WS replaced by what is left of it. -/
def leaveWork (left : List FreWork) (s : State) : State := { s with ws := { s.ws with fromFre := left } }

/-- The offer taken leaves the others of its slot end; a slot end left without offers is done (R139). -/
theorem dropOffer_append_cons {o : Offer} {l1 l2 : List Offer} (first : o ∉ l1) (rest : List FreWork) :
    dropOffer o (l1 ++ o :: l2) rest = if l1 ++ l2 = [] then rest else .offers (l1 ++ l2) :: rest := by
  have erased : (l1 ++ o :: l2).erase o = l1 ++ l2 := by
    rw [List.erase_append_right _ first, List.erase_cons_head]
  simp only [dropOffer, erased, List.isEmpty_iff]

/-- RX_OFFER takes the first offer to its host of the oldest slot end. -/
theorem rxOfferStep_taken {s : State} {o : Offer} {l1 l2 : List Offer} {rest left : List FreWork}
    (work : s.ws.fromFre = .offers (l1 ++ o :: l2) :: rest) (first : ∀ q ∈ l1, q.host ≠ o.host)
    (others : left = if l1 ++ l2 = [] then rest else .offers (l1 ++ l2) :: rest) :
    rxOfferStep o.host s = some (takeOffer o (leaveWork left s)) := by
  have found : (l1 ++ o :: l2).find? (fun q => decide (q.host = o.host)) = some o :=
    List.find?_eq_some_iff_append.mpr ⟨by simp, l1, l2, rfl, fun q m => by simp [first q m]⟩
  have notBefore : o ∉ l1 := fun m => first o m rfl
  simp only [rxOfferStep, work, found, dropOffer_append_cons notBefore, leaveWork, others]

/-! ### What an offer cannot reach -/

/-- Nothing differs but the WS's part of host h, the free cells and the events handed over. -/
structure KeptBeside (h : HostId) (s u : State) : Prop where
  ports   : u.ports = s.ports
  rsc     : u.rsc = s.rsc
  fre     : u.fre = s.fre
  pending : u.pending = s.pending
  fromFre : u.ws.fromFre = s.ws.fromFre
  queues  : u.ws.queues = s.ws.queues
  asks    : u.ws.asks = s.ws.asks
  others  : ∀ g, g ≠ h → u.store g = s.store g

theorem keptBeside_onStore (h : HostId) (f : WsHost → WsHost) (s : State) : KeptBeside h s (s.onStore h f) :=
  ⟨rfl, rfl, rfl, rfl, rfl, rfl, rfl, fun _ other => State.onStore_store_ne s f other⟩

theorem KeptBeside.eventFromWs {h : HostId} {s u : State} (kept : KeptBeside h s u) (e : Event) :
    KeptBeside h s (eventFromWs h e u) := { kept with }

theorem KeptBeside.charge {h : HostId} {s u : State} (kept : KeptBeside h s u) (n : Nat) :
    KeptBeside h s (charge h n u) :=
  { kept with others := fun g other => by rw [charge_store_ne n u other, kept.others g other] }

/-! ### The four conditions of R138 -/

/-- R141: the drop count holds at 65535. -/
theorem satHalf_eq (n : Half) : satHalf n = if n = 0xFFFF#16 then 0xFFFF#16 else n + 1#16 := by
  unfold satHalf
  split
  case isTrue most => exact most
  case isFalse => rfl

section
variable {o : Offer} {s : State}

/-- R141: with the latch set the offer is counted as a drop. -/
theorem takeOffer_of_latch (latched : (s.store o.host).latch = true) :
    takeOffer o s = s.onStore o.host fun c => { c with drops := satHalf c.drops } := by
  simp [takeOffer, latched]

/-- R138: with resume-pending set the offer is passed over. -/
theorem takeOffer_of_resume (unlatched : (s.store o.host).latch ≠ true)
    (resuming : (s.store o.host).resume = true) : takeOffer o s = s := by
  simp [takeOffer, unlatched, resuming]

/-- R138, R141: with no cell left of the quota the offer is dropped, the latch set and RX_OVERFLOW handed over. -/
theorem takeOffer_of_full (unlatched : (s.store o.host).latch ≠ true)
    (notResuming : (s.store o.host).resume ≠ true) (full : (s.store o.host).quota ≤ (s.store o.host).held) :
    takeOffer o s =
      eventFromWs o.host ⟨.rxOverflow, frameField o.frame⟩
        (s.onStore o.host fun c => { c with drops := satHalf c.drops, latch := true }) := by
  simp [takeOffer, unlatched, notResuming, full]

/-- R138, R135, R136: otherwise its record is appended, with the gap-pending flag, and charged. -/
theorem takeOffer_of_room (unlatched : (s.store o.host).latch ≠ true)
    (notResuming : (s.store o.host).resume ≠ true) (room : (s.store o.host).held < (s.store o.host).quota) :
    takeOffer o s =
      charge o.host 1
        (s.onStore o.host fun c => { c with rxq := c.rxq ++ [recordOfOffer o c.gap], gap := false }) := by
  simp [takeOffer, unlatched, notResuming, Nat.not_le.mpr room]

end

theorem takeOffer_keptBeside (o : Offer) (s : State) : KeptBeside o.host s (takeOffer o s) := by
  by_cases latched : (s.store o.host).latch = true
  · rw [takeOffer_of_latch latched]
    exact keptBeside_onStore ..
  by_cases resuming : (s.store o.host).resume = true
  · rw [takeOffer_of_resume latched resuming]
    exact ⟨rfl, rfl, rfl, rfl, rfl, rfl, rfl, fun _ _ => rfl⟩
  by_cases full : (s.store o.host).quota ≤ (s.store o.host).held
  · rw [takeOffer_of_full latched resuming full]
    exact (keptBeside_onStore ..).eventFromWs _
  · rw [takeOffer_of_room latched resuming (Nat.not_le.mp full)]
    exact (keptBeside_onStore ..).charge 1

theorem portsKept_refreshAtn {s u : State} (same : u.ports = s.ports) : PortsKept s u.refreshAtn := fun g => by
  rw [portView_refreshAtn, State.port, State.port, same]

/-- Settles O53: the step taken, what it cannot reach, and then R138's conditions in order. -/
theorem offerIsAppendedDroppedOrPassedOver : Obligations.OfferIsAppendedDroppedOrPassedOver := by
  rintro s h left rest l1 l2 o work rfl first others within
  have taken := rxOfferStep_taken work first others
  obtain ⟨ports, rsc, fre, pending, fromFre, queues, asks, hosts⟩ := takeOffer_keptBeside o (leaveWork left s)
  refine ⟨_, settle_some taken, portsKept_refreshAtn ports, rsc, fre, pending, fromFre, queues, asks, hosts, ?_⟩
  simp only [State.refreshAtn_store, State.refreshAtn_ws, State.refreshAtn_evu]
  split
  case isTrue latched =>
    rw [takeOffer_of_latch (s := leaveWork left s) latched, State.onStore_store_self, satHalf_eq]
    exact ⟨rfl, rfl, rfl⟩
  case isFalse unlatched =>
  split
  case isTrue resuming =>
    rw [takeOffer_of_resume (s := leaveWork left s) unlatched resuming]
    exact ⟨rfl, rfl, rfl⟩
  case isFalse notResuming =>
  split
  case isTrue full =>
    rw [takeOffer_of_full (s := leaveWork left s) unlatched notResuming full.ge, eventFromWs_store,
      State.onStore_store_self, satHalf_eq]
    exact ⟨rfl, rfl, rfl⟩
  case isFalse notFull =>
    rw [takeOffer_of_room (s := leaveWork left s) unlatched notResuming (lt_of_le_of_ne within notFull),
      charge_store_self, State.onStore_store_self]
    exact ⟨rfl, rfl, rfl⟩

end Sys2Proof.Machine
end

section
/-! O59: EVENT_TAKEN (R152, R153). The step is split in two: the event the emitter gives up, and the EVU's action on
it, by the state of the port and the room in the queue. -/

namespace Sys2Proof.Machine

open Sys2Proof.Safety

/-! ### The event given up -/

@[simp] theorem handedBy_setHanded_self (u : Evu) (src : Emitter) (es : List (HostId × Event)) :
    handedBy (setHanded u src es) src = es := by
  cases src <;> rfl

theorem handedBy_setHanded_ne (u : Evu) {src other : Emitter} (es : List (HostId × Event)) (n : other ≠ src) :
    handedBy (setHanded u src es) other = handedBy u other := by
  cases src <;> cases other <;> first | rfl | exact absurd rfl n

@[simp] theorem setHanded_queues (u : Evu) (src : Emitter) (es : List (HostId × Event)) :
    (setHanded u src es).queues = u.queues := by
  cases src <;> rfl

/-- R153: the FRE gives up its oldest event for the host, whatever stands before it for others. -/
theorem nextHanded_fre {h : HostId} {l1 : List (HostId × Event)} (others : ∀ x ∈ l1, x.1 ≠ h) (e : Event)
    (l2 : List (HostId × Event)) : nextHanded .fre h (l1 ++ (h, e) :: l2) = some (e, l1 ++ l2) := by
  have found : (l1 ++ (h, e) :: l2).find? (fun x => decide (x.1 = h)) = some (h, e) :=
    List.find?_eq_some_iff_append.mpr ⟨by simp, l1, l2, rfl, fun x m => by simp [others x m]⟩
  have notBefore : (h, e) ∉ l1 := fun m => others _ m rfl
  simp only [nextHanded, found, List.erase_append_right _ notBefore, List.erase_cons_head]

/-- R153: every emitter gives up its oldest event. -/
theorem nextHanded_cons (src : Emitter) (h : HostId) (e : Event) (rest : List (HostId × Event)) :
    nextHanded src h ((h, e) :: rest) = some (e, rest) := by
  cases src with
  | fre => exact nextHanded_fre (l1 := []) (by simp) e rest
  | rsc | transmit | ws => simp [nextHanded]

/-- R153: only the FRE passes over events, and only those for other hosts. -/
theorem nextHanded_append_cons {src : Emitter} {h : HostId} {l1 : List (HostId × Event)}
    (others : ∀ x ∈ l1, src = .fre ∧ x.1 ≠ h) (e : Event) (l2 : List (HostId × Event)) :
    nextHanded src h (l1 ++ (h, e) :: l2) = some (e, l1 ++ l2) := by
  cases l1 with
  | nil => exact nextHanded_cons src h e l2
  | cons x l1 =>
    obtain ⟨rfl, -⟩ := others x List.mem_cons_self
    exact nextHanded_fre (fun y m => (others y m).2) e l2

/-! ### The EVU's action -/

section
variable (e : Event) {port : PortState} {q : EvQueue}

/-- R152: an event for a port that is not ATTACHED is discarded. -/
theorem takeEvent_of_not_attached (away : port ≠ .attached) : takeEvent e port q = q := by
  rw [takeEvent, if_pos away]

/-- R152: with room in the queue the event becomes its newest record. -/
theorem takeEvent_of_room (attached : ¬ port ≠ .attached) (room : q.events.length < Config.maxEvents) :
    takeEvent e port q = { q with events := q.events ++ [e] } := by
  rw [takeEvent, if_neg attached, if_pos room]

/-- R152: with the queue full the event is lost and EVENTS_LOST set. -/
theorem takeEvent_of_full (attached : ¬ port ≠ .attached) (full : ¬ q.events.length < Config.maxEvents) :
    takeEvent e port q = { q with lost := true } := by
  rw [takeEvent, if_neg attached, if_neg full]

end

/-! ### The step -/

/-- The event of an emitter taken for host h, with what the emitter is left with. -/
def tookEvent (src : Emitter) (h : HostId) (e : Event) (rest : List (HostId × Event)) (s : State) : State :=
  ({ s with evu := setHanded s.evu src rest } : State).onEvq h (takeEvent e (s.port h).state)

section
variable (src : Emitter) (h : HostId) (e : Event) (rest : List (HostId × Event)) (s : State)

theorem tookEvent_evq_self : (tookEvent src h e rest s).evq h = takeEvent e (s.port h).state (s.evq h) := by
  rw [tookEvent, State.onEvq_evq_self, State.evq, setHanded_queues, State.evq]

theorem tookEvent_evq_ne {g : HostId} (other : g ≠ h) : (tookEvent src h e rest s).evq g = s.evq g := by
  rw [tookEvent, State.onEvq_evq_ne _ _ other, State.evq, setHanded_queues, State.evq]

theorem tookEvent_handedBy (src' : Emitter) :
    handedBy (tookEvent src h e rest s).evu src' = handedBy (setHanded s.evu src rest) src' := by
  cases src' <;> rfl

end

/-- Settles O59: the event given up, what its taking cannot reach, and then R152's table in order. -/
theorem eventIsAppendedOrDiscarded : Obligations.EventIsAppendedOrDiscarded := by
  intro s src h e l1 l2 handed others _
  have taken : eventTakenStep src h s = some (tookEvent src h e (l1 ++ l2) s) := by
    simp only [eventTakenStep, handed, nextHanded_append_cons others, tookEvent]
  refine ⟨_, settle_some taken, portsKept_refreshAtn rfl, rfl, rfl, rfl, rfl, ?_, fun src' other => ?_,
    fun g other => ?_, ?_⟩
  · rw [State.refreshAtn_evu, tookEvent_handedBy, handedBy_setHanded_self]
  · rw [State.refreshAtn_evu, tookEvent_handedBy, handedBy_setHanded_ne _ _ other]
  · rw [State.refreshAtn_evq, tookEvent_evq_ne _ _ _ _ _ other]
  rw [State.refreshAtn_evq, tookEvent_evq_self]
  split
  case isTrue away => exact takeEvent_of_not_attached e away
  case isFalse attached =>
  split
  case isTrue room => exact takeEvent_of_room e attached room
  case isFalse full => exact takeEvent_of_full e attached full

end Sys2Proof.Machine
end

section
/-! What a step of an owner does to the ports (R163 to R165, R169, R170): it leaves them, answers a request, reads a
part of a report, or reports to one. -/

namespace Sys2Proof.Machine

open Sys2Proof.Safety

/-! ### Ports that look as before -/

theorem portsKept_of_ports {s u : State} (same : u.ports = s.ports) : PortsKept s u := fun g => by
  rw [State.port, State.port, same]

theorem portsKept_of_markServed {s u : State} {o : Owner} {h : HostId}
    (same : u.ports = (markServed o h s).ports) : PortsKept s u := fun g => by
  rw [← markServed_view o h s g, State.port, State.port, same]

/-! ### The moves -/

/-- What an owner's step can do to a port, as the statements see a port. Only the port itself answers a DETACH. -/
inductive OwnerMove (p q : Port) : Prop where
  | kept (same : portView q = portView p)
  | answered (r : Request) (x : Response) (asked : p.inProgress = some r) (notDetach : r.kind ≠ .detach)
      (view : portView q = { portView p with inProgress := none, held := some x })
  | read (r x : Request) (asked : p.inProgress = some r) (notDetach : r.kind ≠ .detach) (kind : x.kind = r.kind)
      (view : portView q = { portView p with inProgress := some x })
  | reported (left : Owners) (due : p.toReport.isEmpty = false) (evu : left.evu = p.toReport.evu)
      (view : portView q = reportedPort (portView p) left)

/-- Every port has made an owner's move. -/
def OwnerMoves (s u : State) : Prop := ∀ g, OwnerMove (s.port g) (u.port g)

theorem OwnerMoves.of_kept {s u : State} (kept : PortsKept s u) : OwnerMoves s u := fun g => .kept (kept g)

theorem OwnerMoves.of_ports {s u : State} (same : u.ports = s.ports) : OwnerMoves s u :=
  .of_kept (portsKept_of_ports same)

theorem OwnerMoves.refreshAtn {s u : State} (moves : OwnerMoves s u) : OwnerMoves s u.refreshAtn := by
  intro g
  cases moves g with
  | kept same => exact .kept (by rw [portView_refreshAtn, same])
  | answered r x asked notDetach view => exact .answered r x asked notDetach (by rw [portView_refreshAtn, view])
  | read r x asked notDetach kind view => exact .read r x asked notDetach kind (by rw [portView_refreshAtn, view])
  | reported left due evu view => exact .reported left due evu (by rw [portView_refreshAtn, view])

theorem replied_answer {s u : State} {h : HostId} {r : Request} (res : Result) (p : List Byte)
    (kept : PortsKept s u) (asked : (s.port h).inProgress = some r) : Replied s (answer h res p u) h r res p := by
  simpa only [Replied, OthersKept, portView_refreshAtn] using replied_of_answer (res := res) (p := p) kept asked

theorem OwnerMoves.answer {s u : State} {h : HostId} {k : Kind} {r : Request} (res : Result) (p : List Byte)
    (kept : PortsKept s u) (asked : Asked s h k r) (notDetach : k ≠ .detach) :
    OwnerMoves s (answer h res p u) := by
  obtain ⟨inProgress, rfl⟩ := asked
  obtain ⟨view, others⟩ := replied_answer res p kept inProgress
  intro g
  by_cases own : g = h
  · subst own; exact .answered r _ inProgress notDetach view
  · exact .kept (others g own)

/-- R170: the report of an owner that had yet to report, other than the EVU's. -/
theorem OwnerMoves.report {s u : State} {h : HostId} {clear : Owners → Owners} (same : u.ports = s.ports)
    (due : (s.port h).toReport.isEmpty = false)
    (evu : (clear (s.port h).toReport).evu = (s.port h).toReport.evu) : OwnerMoves s (report h clear u) := by
  have ports (g : HostId) : u.port g = s.port g := by rw [State.port, same]; rfl
  obtain ⟨view, others⟩ := reported_of_report clear ports
  intro g
  by_cases own : g = h
  · subst own; exact .reported _ due evu (by rw [← portView_refreshAtn, view])
  · exact .kept (by rw [← others g own, portView_refreshAtn])

/-! ### What the moves leave -/

theorem reportedPort_state (p : Port) (left : Owners) :
    (reportedPort p left).state = if left.isEmpty then .detached else p.state := by
  unfold reportedPort
  split
  · split <;> rfl
  · rfl

/-- No owner makes a port DETACHING, and none attaches it (R168, R169). -/
theorem OwnerMove.state {p q : Port} (move : OwnerMove p q) :
    q.state = p.state ∨ q.state = .detached ∧ p.toReport.isEmpty = false := by
  cases move with
  | kept same => exact .inl (portView_state same)
  | answered r x asked notDetach view => exact .inl (congrArg (·.state) view)
  | read r x asked notDetach kind view => exact .inl (congrArg (·.state) view)
  | reported left due evu view =>
    have state : q.state = (reportedPort (portView p) left).state := congrArg (·.state) view
    rw [reportedPort_state] at state
    split at state
    · exact .inr ⟨state, due⟩
    · exact .inl state

theorem OwnerMoves.detaching {s u : State} (moves : OwnerMoves s u) {g : HostId}
    (now : (u.port g).state = .detaching) : (s.port g).state = .detaching := by
  obtain same | ⟨detached, -⟩ := (moves g).state
  · rw [← same, now]
  · simp [detached] at now

end Sys2Proof.Machine
end

section
/-! What each step can reach, said once: a request's step is the taking of the request and the action on it, and every
step's effect beside the blocks it leaves alone. -/

namespace Sys2Proof.Machine

open Sys2Proof.Safety

/-! ### How far a step reaches -/

/-- The ports have made owners' moves, and the event queues stand. -/
structure PortsMoved (s u : State) : Prop where
  moves : OwnerMoves s u
  evq   : ∀ g, u.evq g = s.evq g

/-- Nor does the FRE differ. -/
structure KeepsFre (s u : State) : Prop extends PortsMoved s u where
  fre : u.fre = s.fre

/-- Nor does the RSC differ. -/
structure KeepsRsc (s u : State) : Prop extends PortsMoved s u where
  rsc : u.rsc = s.rsc

/-- Nor do the RSC and the FRE differ. -/
structure KeepsRscFre (s u : State) : Prop extends KeepsRsc s u, KeepsFre s u

theorem KeepsRscFre.of_blocks {s u : State} (moves : OwnerMoves s u) (blocks : BlocksKept s u) :
    KeepsRscFre s u := by
  obtain ⟨rsc, fre, -, evu, -⟩ := blocks
  exact ⟨⟨⟨moves, fun g => by rw [State.evq, evu, State.evq]⟩, rsc⟩, fre⟩

/-- The RSC and the FRE do not differ; the ports and the event queues may. -/
structure OutsideEvu (s u : State) : Prop where
  rsc : u.rsc = s.rsc
  fre : u.fre = s.fre

theorem evq_of_evu {s u : State} (same : u.evu = s.evu) (g : HostId) : u.evq g = s.evq g := by
  rw [State.evq, same, State.evq]

/-! ### Requests the arbiter grants (R21) -/

/-- The arbiter's pointer stands at port h. -/
def pointAt (h : HostId) (s : State) : State := s.onRsc fun c => { c with pointer := h }

@[simp] theorem pointAt_ports (h : HostId) (s : State) : (pointAt h s).ports = s.ports := rfl
@[simp] theorem pointAt_port (h : HostId) (s : State) : (pointAt h s).port = s.port := rfl
@[simp] theorem pointAt_rsc (h : HostId) (s : State) : (pointAt h s).rsc = { s.rsc with pointer := h } := rfl
@[simp] theorem pointAt_fre (h : HostId) (s : State) : (pointAt h s).fre = s.fre := rfl
@[simp] theorem pointAt_ws (h : HostId) (s : State) : (pointAt h s).ws = s.ws := rfl
@[simp] theorem pointAt_evu (h : HostId) (s : State) : (pointAt h s).evu = s.evu := rfl
@[simp] theorem pointAt_pending (h : HostId) (s : State) : (pointAt h s).pending = s.pending := rfl

theorem pointAt_portsKept (h : HostId) (s : State) : PortsKept s (pointAt h s) := fun _ => rfl

/-- The action on a CLAIM taken (R25 to R30). -/
def claimFor (h : HostId) (r : Request) (t : State) : State :=
  match parseClaim r.payload with
  | none => answer h .badArgument (indexByte none) t
  | some a =>
    match claimRefusal t h a with
    | some (res, i) => answer h res (indexByte i) t
    | none =>
      answer h .ok (be16 t.rsc.seq ++ [(t.port h).session])
        (a.slots.foldl (createRecord h (t.port h).session a) t)

/-- The action on a RELEASE taken (R32 to R36). -/
def releaseFor (h : HostId) (r : Request) (t : State) : State :=
  match parseRelease r.payload with
  | none => answer h .badArgument (indexByte none) t
  | some a =>
    match listRefusal t.rsc.records h a.role a.slots with
    | some (res, i) => answer h res (indexByte i) t
    | none =>
      answer h .ok (nat8 a.slots.length :: a.slots.map (releaseOutcome t.rsc.records h a.role))
        (a.slots.foldl (releaseSlot h a.role a.mode) t)

/-- The action on a RENEW taken (R37, R38). -/
def renewFor (h : HostId) (r : Request) (t : State) : State :=
  match parseRenew r.payload with
  | none => answer h .badArgument (indexByte none) t
  | some (role, slots) =>
    match listRefusal t.rsc.records h role slots with
    | some (res, i) => answer h res (indexByte i) t
    | none =>
      answer h .ok (nat8 slots.length :: slots.flatMap (renewOutcome t.rsc.records h role))
        (slots.foldl (renewSlot h role) t)

/-- The action on a QUERY_SLOT taken (R42). -/
def querySlotFor (h : HostId) (r : Request) (t : State) : State :=
  match oneByte r.payload with
  | none => answer h .badArgument [] t
  | some b =>
    if Config.mapSlots ≤ b.toNat then answer h .badSlot [] t else answer h .ok (slotPayload t b.toNat) t

theorem claimStep_eq (s : State) :
    claimStep s = (takeGranted .claim s).map fun x => claimFor x.1 x.2.1 x.2.2 := by
  unfold claimStep claimFor
  rcases takeGranted .claim s with _ | ⟨h, r, t⟩
  · rfl
  · simp only [Option.map_some]
    rcases parseClaim r.payload with _ | a
    · rfl
    · dsimp only
      rcases claimRefusal t h a with _ | ⟨res, i⟩ <;> rfl

theorem releaseStep_eq (s : State) :
    releaseStep s = (takeGranted .release s).map fun x => releaseFor x.1 x.2.1 x.2.2 := by
  unfold releaseStep releaseFor
  rcases takeGranted .release s with _ | ⟨h, r, t⟩
  · rfl
  · simp only [Option.map_some]
    rcases parseRelease r.payload with _ | a
    · rfl
    · dsimp only
      rcases listRefusal t.rsc.records h a.role a.slots with _ | ⟨res, i⟩ <;> rfl

theorem renewStep_eq (s : State) :
    renewStep s = (takeGranted .renew s).map fun x => renewFor x.1 x.2.1 x.2.2 := by
  unfold renewStep renewFor
  rcases takeGranted .renew s with _ | ⟨h, r, t⟩
  · rfl
  · simp only [Option.map_some]
    rcases parseRenew r.payload with _ | ⟨role, slots⟩
    · rfl
    · dsimp only
      rcases listRefusal t.rsc.records h role slots with _ | ⟨res, i⟩ <;> rfl

theorem querySlotStep_eq (s : State) :
    querySlotStep s = (takeGranted .querySlot s).map fun x => querySlotFor x.1 x.2.1 x.2.2 := by
  unfold querySlotStep querySlotFor
  rcases takeGranted .querySlot s with _ | ⟨h, r, t⟩
  · rfl
  · simp only [Option.map_some]
    rcases oneByte r.payload with _ | b
    · rfl
    · exact (apply_ite some _ _ _).symm

/-- A step that takes a granted request and acts on it. -/
theorem grantedStep_iff {k : Kind} {s u : State} {o : Option State} {act : HostId → Request → State → State}
    (eq : o = (takeGranted k s).map fun x => act x.1 x.2.1 x.2.2) :
    o = some u ↔ ∃ h r, Chosen s h ∧ Asked s h k r ∧ u = act h r (pointAt h s) := by
  rw [eq, Option.map_eq_some_iff]
  constructor
  · rintro ⟨⟨h, r, t⟩, taken, rfl⟩
    obtain ⟨chosen, asked, rfl⟩ := takeGranted_some.mp taken
    exact ⟨h, r, chosen, asked, rfl⟩
  · rintro ⟨h, r, chosen, asked, rfl⟩
    exact ⟨(h, r, pointAt h s), takeGranted_some.mpr ⟨chosen, asked, rfl⟩, rfl⟩

theorem claimStep_iff {s u : State} :
    claimStep s = some u ↔ ∃ h r, Chosen s h ∧ Asked s h .claim r ∧ u = claimFor h r (pointAt h s) :=
  grantedStep_iff (claimStep_eq s)

theorem releaseStep_iff {s u : State} :
    releaseStep s = some u ↔ ∃ h r, Chosen s h ∧ Asked s h .release r ∧ u = releaseFor h r (pointAt h s) :=
  grantedStep_iff (releaseStep_eq s)

theorem renewStep_iff {s u : State} :
    renewStep s = some u ↔ ∃ h r, Chosen s h ∧ Asked s h .renew r ∧ u = renewFor h r (pointAt h s) :=
  grantedStep_iff (renewStep_eq s)

theorem querySlotStep_iff {s u : State} :
    querySlotStep s = some u ↔ ∃ h r, Chosen s h ∧ Asked s h .querySlot r ∧ u = querySlotFor h r (pointAt h s) :=
  grantedStep_iff (querySlotStep_eq s)

/-! ### What the actions on claim requests leave alone -/

/-- Only the RSC and the WS differ. -/
structure ClaimFrame (s u : State) : Prop where
  ports   : u.ports = s.ports
  fre     : u.fre = s.fre
  evu     : u.evu = s.evu
  pending : u.pending = s.pending

theorem ClaimFrame.refl (s : State) : ClaimFrame s s := ⟨rfl, rfl, rfl, rfl⟩

theorem ClaimFrame.trans {s t u : State} (a : ClaimFrame s t) (b : ClaimFrame t u) : ClaimFrame s u :=
  ⟨b.ports.trans a.ports, b.fre.trans a.fre, b.evu.trans a.evu, b.pending.trans a.pending⟩

theorem ClaimFrame.foldl {act : State → Nat → State} (each : ∀ t x, ClaimFrame t (act t x)) (slots : List Nat)
    (s : State) : ClaimFrame s (slots.foldl act s) :=
  List.foldlRecOn (motive := fun t => ClaimFrame s t) slots act (.refl s)
    fun t soFar x _ => soFar.trans (each t x)

theorem createRecord_frame (h : HostId) (session : Byte) (a : ClaimArgs) (s : State) (slot : Nat) :
    ClaimFrame s (createRecord h session a s slot) := by
  unfold createRecord
  simp only []
  split <;> exact ⟨rfl, rfl, rfl, rfl⟩

theorem releaseSlot_frame (h : HostId) (role : Role) (mode : ReleaseMode) (s : State) (slot : Nat) :
    ClaimFrame s (releaseSlot h role mode s slot) := by
  unfold releaseSlot
  split
  · split <;> exact ⟨rfl, rfl, rfl, rfl⟩
  · exact .refl s

theorem renewSlot_frame (h : HostId) (role : Role) (s : State) (slot : Nat) :
    ClaimFrame s (renewSlot h role s slot) := by
  unfold renewSlot
  split
  · exact ⟨rfl, rfl, rfl, rfl⟩
  · exact .refl s

/-- The state holds the answer to port h's request, given in a state that has moved in the RSC and the WS alone. -/
def ClaimAnswer (h : HostId) (s u : State) : Prop :=
  ∃ res p v, u = answer h res p v ∧ ClaimFrame s v

theorem claimFor_answer (h : HostId) (r : Request) (t : State) : ClaimAnswer h t (claimFor h r t) := by
  unfold claimFor
  split
  · exact ⟨_, _, _, rfl, .refl t⟩
  · split
    · exact ⟨_, _, _, rfl, .refl t⟩
    · exact ⟨_, _, _, rfl, .foldl (createRecord_frame h _ _) _ t⟩

theorem releaseFor_answer (h : HostId) (r : Request) (t : State) : ClaimAnswer h t (releaseFor h r t) := by
  unfold releaseFor
  split
  · exact ⟨_, _, _, rfl, .refl t⟩
  · split
    · exact ⟨_, _, _, rfl, .refl t⟩
    · exact ⟨_, _, _, rfl, .foldl (releaseSlot_frame h _ _) _ t⟩

theorem renewFor_answer (h : HostId) (r : Request) (t : State) : ClaimAnswer h t (renewFor h r t) := by
  unfold renewFor
  split
  · exact ⟨_, _, _, rfl, .refl t⟩
  · split
    · exact ⟨_, _, _, rfl, .refl t⟩
    · exact ⟨_, _, _, rfl, .foldl (renewSlot_frame h _) _ t⟩

theorem querySlotFor_answer (h : HostId) (r : Request) (t : State) : ClaimAnswer h t (querySlotFor h r t) := by
  unfold querySlotFor
  split
  · exact ⟨_, _, _, rfl, .refl t⟩
  · split <;> exact ⟨_, _, _, rfl, .refl t⟩

/-- A claim request is answered at its port, and nothing else of the ports, the FRE and the EVU changes. -/
theorem grantedStep_frame {k : Kind} {s u : State} {act : HostId → Request → State → State}
    (taken : ∃ h r, Chosen s h ∧ Asked s h k r ∧ u = act h r (pointAt h s))
    (answers : ∀ h r t, ClaimAnswer h t (act h r t)) (notDetach : k ≠ .detach) :
    KeepsFre s u := by
  obtain ⟨h, r, -, asked, rfl⟩ := taken
  obtain ⟨res, p, v, answered, frame⟩ := answers h r (pointAt h s)
  rw [answered]
  refine ⟨⟨.answer res p (portsKept_of_ports frame.ports) asked notDetach, evq_of_evu ?_⟩, ?_⟩
  · rw [answer_evu, frame.evu, pointAt_evu]
  · rw [answer_fre, frame.fre, pointAt_fre]

theorem claimStep_frame {s u : State} (e : claimStep s = some u) : KeepsFre s u :=
  grantedStep_frame (claimStep_iff.mp e) claimFor_answer nofun

theorem releaseStep_frame {s u : State} (e : releaseStep s = some u) : KeepsFre s u :=
  grantedStep_frame (releaseStep_iff.mp e) releaseFor_answer nofun

theorem renewStep_frame {s u : State} (e : renewStep s = some u) : KeepsFre s u :=
  grantedStep_frame (renewStep_iff.mp e) renewFor_answer nofun

theorem querySlotStep_frame {s u : State} (e : querySlotStep s = some u) : KeepsFre s u :=
  grantedStep_frame (querySlotStep_iff.mp e) querySlotFor_answer nofun

/-! ### Requests the FRE, the WS and the EVU take (R81, R105) -/

/-- A step that answers port h's request, given in a state whose ports are as before but for the note of the service. -/
theorem fairAnswer_moves {s v : State} {h : HostId} {k : Kind} {r : Request} {o : Owner} {res : Result}
    {p : List Byte} (asked : Asked s h k r) (same : v.ports = (markServed o h s).ports)
    (notDetach : k ≠ .detach) : OwnerMoves s (answer h res p v) :=
  .answer res p (portsKept_of_markServed same) asked notDetach

theorem blocksKept_onPort (h : HostId) (f : Port → Port) (s : State) : BlocksKept s (s.onPort h f) :=
  ⟨rfl, rfl, rfl, rfl, rfl⟩

theorem blocksKept_answer {s u : State} (h : HostId) (res : Result) (p : List Byte) (kept : BlocksKept s u) :
    BlocksKept s (answer h res p u) := by simpa [BlocksKept] using kept

@[simp] theorem votesRaised_evq (s : State) : (votesRaised s).evq = s.evq := by
  unfold votesRaised
  split
  · split <;> rfl
  all_goals rfl

@[simp] theorem votesEmptied_evq (s : State) : (votesEmptied s).evq = s.evq := by
  unfold votesEmptied
  split
  case h_4 => split <;> rfl
  all_goals rfl

@[simp] theorem addVote_evq (h : HostId) (s : State) : (addVote h s).evq = s.evq := by
  unfold addVote
  dsimp only
  split <;> simp

@[simp] theorem removeVote_evq (h : HostId) (s : State) : (removeVote h s).evq = s.evq := by
  unfold removeVote
  dsimp only
  split <;> simp

@[simp] theorem passOver_evq (h : HostId) (s : State) : (passOver h s).evq = s.evq := rfl

@[simp] theorem report_evq (h : HostId) (c : Owners → Owners) (s : State) : (report h c s).evq = s.evq := by
  funext g
  rw [State.evq, report_evu, State.evq]

section
variable {s u : State} {h : HostId}

theorem formatStep_frame (e : formatStep h s = some u) : KeepsRsc s u := by
  unfold formatStep at e
  split at e
  · rename_i r t taken
    obtain ⟨asked, -, rfl⟩ := takeFair_some.mp taken
    split at e
    · cases e; exact ⟨⟨fairAnswer_moves asked rfl nofun, by simp⟩, by simp⟩
    · split at e
      · cases e; exact ⟨⟨fairAnswer_moves asked rfl nofun, by simp⟩, by simp⟩
      · split at e
        · split at e <;> (cases e; exact ⟨⟨fairAnswer_moves asked rfl nofun, by simp⟩, by simp⟩)
        · cases e
  · cases e

theorem runStep_frame (e : runStep h s = some u) : KeepsRsc s u := by
  unfold runStep at e
  split at e
  · rename_i r t taken
    obtain ⟨asked, -, rfl⟩ := takeFair_some.mp taken
    cases e
    exact ⟨⟨fairAnswer_moves asked (addVote_ports ..) nofun, by simp⟩, by simp⟩
  · cases e

theorem haltStep_frame (e : haltStep h s = some u) : KeepsRsc s u := by
  unfold haltStep at e
  split at e
  · rename_i r t taken
    obtain ⟨asked, -, rfl⟩ := takeFair_some.mp taken
    cases e
    exact ⟨⟨fairAnswer_moves asked (removeVote_ports ..) nofun, by simp⟩, by simp⟩
  · cases e

theorem queryEngineStep_frame (e : queryEngineStep h s = some u) : KeepsRscFre s u := by
  unfold queryEngineStep at e
  split at e
  · rename_i r t taken
    obtain ⟨asked, -, rfl⟩ := takeFair_some.mp taken
    cases e
    exact .of_blocks (fairAnswer_moves asked rfl nofun) (by simp [BlocksKept])
  · cases e

theorem setQuotaStep_frame (e : setQuotaStep h s = some u) : KeepsRscFre s u := by
  unfold setQuotaStep at e
  split at e
  · rename_i r t taken
    obtain ⟨asked, -, rfl⟩ := takeFair_some.mp taken
    split at e
    · cases e; exact ⟨⟨⟨fairAnswer_moves asked rfl nofun, by simp⟩, by simp⟩, by simp⟩
    · split at e
      · cases e; exact ⟨⟨⟨fairAnswer_moves asked rfl nofun, by simp⟩, by simp⟩, by simp⟩
      · split at e <;> (cases e; exact ⟨⟨⟨fairAnswer_moves asked rfl nofun, by simp⟩, by simp⟩, by simp⟩)
  · cases e

theorem readWordsStep_frame (e : readWordsStep h s = some u) : KeepsRscFre s u := by
  unfold readWordsStep at e
  split at e
  · rename_i r t taken
    obtain ⟨asked, -, rfl⟩ := takeFair_some.mp taken
    split at e <;> (cases e; exact ⟨⟨⟨fairAnswer_moves asked rfl nofun, by simp⟩, by simp⟩, by simp⟩)
  · cases e

theorem clearOverflowStep_frame (e : clearOverflowStep h s = some u) : KeepsRscFre s u := by
  unfold clearOverflowStep at e
  split at e
  · rename_i r t taken
    obtain ⟨asked, -, rfl⟩ := takeFair_some.mp taken
    dsimp only at e
    split at e <;> (cases e; exact ⟨⟨⟨fairAnswer_moves asked rfl nofun, by simp⟩, by simp⟩, by simp⟩)
  · cases e

@[simp] theorem appendEntries_ports (id : Nat) (h : HostId) (es : List TxEntry) (s : State) :
    (appendEntries id h es s).ports = s.ports := by unfold appendEntries; split <;> rfl
@[simp] theorem appendEntries_rsc (id : Nat) (h : HostId) (es : List TxEntry) (s : State) :
    (appendEntries id h es s).rsc = s.rsc := by unfold appendEntries; split <;> rfl
@[simp] theorem appendEntries_fre (id : Nat) (h : HostId) (es : List TxEntry) (s : State) :
    (appendEntries id h es s).fre = s.fre := by unfold appendEntries; split <;> rfl
@[simp] theorem appendEntries_evu (id : Nat) (h : HostId) (es : List TxEntry) (s : State) :
    (appendEntries id h es s).evu = s.evu := by unfold appendEntries; split <;> rfl
@[simp] theorem appendEntries_pending (id : Nat) (h : HostId) (es : List TxEntry) (s : State) :
    (appendEntries id h es s).pending = s.pending := by unfold appendEntries; split <;> rfl

/-- A write is answered at its port, and changes nothing but the record and the WS (R120, R121). -/
theorem writeTo_answer (h : HostId) (slot : Nat) (es : List TxEntry) (s : State) :
    ClaimAnswer h s (writeTo h slot es s) := by
  unfold writeTo
  split
  · split <;> exact ⟨_, _, _, rfl, .refl s⟩
  · split
    · exact ⟨_, _, _, rfl, .refl s⟩
    · dsimp only
      split
      · exact ⟨_, _, _, rfl, .refl s⟩
      · split
        · exact ⟨_, _, _, rfl, .refl s⟩
        · exact ⟨_, _, _, rfl, by simp, by simp, by simp, by simp⟩

theorem writeWordsStep_frame (e : writeWordsStep h s = some u) : KeepsFre s u := by
  unfold writeWordsStep at e
  split at e
  · split at e
    · rename_i r t taken
      obtain ⟨asked, -, rfl⟩ := takeFair_some.mp taken
      split at e
      · cases e; exact ⟨⟨fairAnswer_moves asked rfl nofun, by simp⟩, by simp⟩
      · rename_i slot es _
        cases e
        obtain ⟨res, p, v, answered, frame⟩ := writeTo_answer h slot es (markServed Kind.writeWords.owner h s)
        rw [answered]
        exact ⟨⟨fairAnswer_moves asked frame.ports nofun, evq_of_evu (by simp [frame.evu])⟩, by simp [frame.fre]⟩
    · cases e
  · cases e

/-- The port keeps what has been read of its report, its request otherwise as it is (R115). -/
theorem keepReport_moves {s v : State} {h : HostId} {r : Request} (p : HostReport) (kept : PortsKept s v)
    (asked : Asked s h .queryHost r) : OwnerMoves s (keepReport h p v) := by
  obtain ⟨inProgress, kind⟩ := asked
  intro g
  by_cases own : g = h
  · subst own
    have view := kept g
    have request := portView_inProgress view
    rw [inProgress] at request
    refine .read r { r with passed := [], report := p } inProgress (kind ▸ nofun) rfl ?_
    rw [keepReport, State.onPort_port_self, ← view]
    cases now : (v.port g).inProgress with
    | none => simp [now] at request
    | some q =>
      simp only [now, Option.map_some, Option.some.injEq] at request
      have sameKind : q.kind = r.kind := congrArg (·.kind) request
      have sameTag : q.tag = r.tag := congrArg (·.tag) request
      have samePayload : q.payload = r.payload := congrArg (·.payload) request
      simp [portView, now, sameKind, sameTag, samePayload]
  · exact .kept (by rw [keepReport, State.onPort_port_ne _ _ own, kept g])

theorem queryHostStep_frame {parts : QueryParts} (e : queryHostStep h parts s = some u) : KeepsRscFre s u := by
  unfold queryHostStep at e
  split at e
  · cases e
  · rename_i r found
    have asked := requestOf_some.mp found
    split at e
    · split at e
      · cases e; exact .of_blocks (fairAnswer_moves asked rfl nofun) (by simp [BlocksKept])
      · cases e
    · dsimp only at e
      split at e
      · cases e
      · have kept (b : Bool) : PortsKept s (if b then markServed .ws h s else s) := by
          cases b
          · exact portsKept_refl s
          · exact markServed_portsKept .ws h s
        have blocks (b : Bool) : BlocksKept s (if b then markServed .ws h s else s) := by
          cases b <;> simp [BlocksKept]
        split at e
        · cases e
          exact .of_blocks (.answer _ _ (kept _) asked nofun) (blocksKept_answer _ _ _ (blocks _))
        · cases e
          exact .of_blocks (keepReport_moves _ (kept _) asked) (blocks _)

theorem nextEventsStep_frame (e : nextEventsStep h s = some u) : OwnerMoves s u ∧ OutsideEvu s u := by
  unfold nextEventsStep at e
  split at e
  · rename_i r found
    have asked := requestOf_some.mp found
    split at e
    · cases e; exact ⟨.answer _ _ (portsKept_refl s) asked nofun, by simp, by simp⟩
    · cases e; exact ⟨.answer _ _ (portsKept_of_ports rfl) asked nofun, by simp, by simp⟩
  · cases e

/-! ### Session ends (R169, R170) -/

theorem owners_due {o : Owners} (due : o.rsc = true ∨ o.ws = true ∨ o.evu = true ∨ o.fre = true) :
    o.isEmpty = false := by
  simp only [Owners.isEmpty]
  rcases due with d | d | d | d <;> simp [d]

theorem rscSessionEndStep_frame (e : rscSessionEndStep h s = some u) : KeepsFre s u := by
  unfold rscSessionEndStep at e
  split at e
  · rename_i ready
    cases e
    exact ⟨⟨.report rfl (owners_due (.inl ready.1)) rfl, by simp⟩, by simp⟩
  · cases e

theorem wsSessionEndStep_frame (e : wsSessionEndStep h s = some u) : KeepsRscFre s u := by
  unfold wsSessionEndStep at e
  split at e
  · rename_i ready
    cases e
    exact ⟨⟨⟨.report rfl (owners_due (.inr (.inl ready))) rfl, by simp⟩, by simp⟩, by simp⟩
  · cases e

theorem freSessionEndStep_frame (e : freSessionEndStep h s = some u) : KeepsRsc s u := by
  unfold freSessionEndStep at e
  split at e
  · rename_i ready
    cases e
    exact ⟨⟨.report (removeVote_ports ..) (owners_due (.inr (.inr (.inr ready)))) rfl, by simp⟩, by simp⟩
  · cases e

theorem evuSessionEndStep_frame (e : evuSessionEndStep h s = some u) : OutsideEvu s u := by
  unfold evuSessionEndStep at e
  split at e
  · cases e; exact ⟨by simp, by simp⟩
  · cases e

/-! ### The boundary procedure and the edges of the bit clock -/

theorem boundaryStep_frame (e : boundaryStep s = some u) : KeepsFre s u := by
  unfold boundaryStep at e
  split at e
  · cases e
  · split at e
    · cases e; exact ⟨⟨.of_ports rfl, fun _ => rfl⟩, rfl⟩
    · cases e; exact ⟨⟨.of_ports rfl, fun _ => rfl⟩, rfl⟩
    · cases e

theorem expireNext_frame {k : Word} {ls : List ListenerHost} {first rest : List ClaimRec}
    (e : expireNext k ls first rest s = some u) : KeepsFre s u := by
  unfold expireNext at e
  split at e
  · cases e; exact ⟨⟨.of_ports rfl, fun _ => rfl⟩, rfl⟩
  · cases e

theorem leaseExpiryStep_frame (e : leaseExpiryStep s = some u) : KeepsFre s u := by
  unfold leaseExpiryStep at e
  split at e
  · cases e
  · split at e
    · exact expireNext_frame e
    · exact { expireNext_frame e with }
    · cases e

theorem awaitingStep_frame (e : awaitingStep s = some u) : PortsMoved s u := by
  unfold awaitingStep at e
  split at e
  · dsimp only at e
    split at e <;> (cases e; exact ⟨.of_ports (by simp), evq_of_evu (by simp)⟩)
  · cases e

theorem leadInEndStep_frame (e : leadInEndStep s = some u) : PortsMoved s u := by
  unfold leadInEndStep at e
  split at e
  · cases e; exact ⟨.of_ports rfl, fun _ => rfl⟩
  · cases e

theorem frameBoundaryStep_frame (e : frameBoundaryStep s = some u) : PortsMoved s u := by
  unfold frameBoundaryStep at e
  dsimp only at e
  split at e
  · split at e <;> (cases e; exact ⟨.of_ports rfl, fun _ => rfl⟩)
  · cases e

theorem expectedInstantStep_frame (e : expectedInstantStep s = some u) : PortsMoved s u := by
  unfold expectedInstantStep at e
  split at e
  · cases e; exact ⟨.of_ports rfl, fun _ => rfl⟩
  · cases e

theorem loseLock_frame (acq : Option Nat) (s : State) : PortsMoved s (loseLock acq s) := by
  unfold loseLock
  dsimp only
  split <;> exact ⟨.of_ports rfl, fun _ => rfl⟩

theorem applyTraffic_evq (k : Word) (t : Option Traffic) (s : State) : (applyTraffic k t s).evq = s.evq := by
  obtain ⟨-, -, -, -, -, evu⟩ := applyTraffic_rest s k t
  funext g
  rw [State.evq, evu, State.evq]

theorem applyTraffic_ports (k : Word) (t : Option Traffic) (s : State) :
    (applyTraffic k t s).ports = s.ports := (applyTraffic_rest s k t).1

theorem confirmStep_frame (k : Word) (r : BoundaryResult) (rxd : Bool) (s : State) :
    PortsMoved s (confirmStep k r rxd s) := by
  unfold confirmStep
  dsimp only
  split
  · exact ⟨.of_ports rfl, fun _ => rfl⟩
  · exact ⟨.of_ports (applyTraffic_ports ..), congrFun (applyTraffic_evq ..)⟩

theorem frameSyncStep_frame {rxd : Bool} (e : frameSyncStep rxd s = some u) : PortsMoved s u := by
  unfold frameSyncStep at e
  split at e
  · split at e
    · cases e
    · split at e <;> (cases e; exact ⟨.of_ports rfl, fun _ => rfl⟩)
    all_goals
      split at e
      · split at e
        · cases e; exact confirmStep_frame ..
        · cases e
        · cases e; exact { loseLock_frame .. with }
      · cases e
  · cases e

theorem missingSyncStep_frame {hfsync : Bool} (e : missingSyncStep hfsync s = some u) : PortsMoved s u := by
  unfold missingSyncStep at e
  split at e
  · split at e
    · cases e; exact { loseLock_frame .. with }
    · cases e
  · cases e
  · cases e

theorem slotStartStep_frame (e : slotStartStep s = some u) : PortsMoved s u := by
  unfold slotStartStep at e
  split at e
  · split at e
    · dsimp only at e
      have evq (k : Word) (p : SlotPlan) : (applyTraffic k p.traffic (putSlot p s)).evq = s.evq := by
        rw [applyTraffic_evq]
        funext g
        rw [State.evq, putSlot_evu, State.evq]
      split at e <;> (cases e; exact ⟨.of_ports (by simp [applyTraffic_ports]), by simp [evq]⟩)
    · cases e
  · cases e

theorem offerAll_frame (os : List Offer) (s : State) :
    (offerAll os s).ports = s.ports ∧ (offerAll os s).rsc = s.rsc ∧ (offerAll os s).fre = s.fre ∧
      (offerAll os s).evu = s.evu ∧ (offerAll os s).pending = s.pending := by
  unfold offerAll
  split <;> exact ⟨rfl, rfl, rfl, rfl, rfl⟩

theorem slotEndStep_frame {hfsync rxd : Bool} (e : slotEndStep hfsync rxd s = some u) : KeepsRsc s u := by
  unfold slotEndStep at e
  split at e
  · cases e
    obtain ⟨ports, rsc, -, evu, -⟩ := offerAll_frame
      (offersOf s (s.fre.bitPos / s.fre.inUse.width) (slotWord s.fre (shiftIn s.fre.rxWord rxd))) s
    exact ⟨⟨.of_ports ports, evq_of_evu evu⟩, rsc⟩
  · cases e

theorem bitClockStep_frame {edge : Edge} {hfsync rxd : Bool} (e : bitClockStep edge hfsync rxd s = some u) :
    KeepsRsc s u := by
  unfold bitClockStep at e
  split at e
  · cases e
  · cases e; exact ⟨⟨.of_ports rfl, fun _ => rfl⟩, rfl⟩
  all_goals
    split at e
    all_goals cases e
    all_goals exact ⟨⟨.of_ports rfl, fun _ => rfl⟩, rfl⟩

/-! ### The WS and the EVU taking work -/

theorem rxOfferStep_frame (e : rxOfferStep h s = some u) : KeepsRscFre s u := by
  unfold rxOfferStep at e
  split at e
  · split at e
    · rename_i os rest _ o _
      cases e
      unfold takeOffer
      dsimp only
      split
      · exact ⟨⟨⟨.of_ports rfl, fun _ => rfl⟩, rfl⟩, rfl⟩
      · split
        · exact ⟨⟨⟨.of_ports rfl, fun _ => rfl⟩, rfl⟩, rfl⟩
        · split <;> exact ⟨⟨⟨.of_ports rfl, fun _ => rfl⟩, rfl⟩, rfl⟩
    · cases e
  · cases e

theorem lossNoticeStep_frame (e : lossNoticeStep s = some u) : KeepsRscFre s u := by
  unfold lossNoticeStep at e
  split at e
  · cases e; exact ⟨⟨⟨.of_ports rfl, fun _ => rfl⟩, rfl⟩, rfl⟩
  · cases e

theorem wsBoundaryStep_frame (e : wsBoundaryStep s = some u) : KeepsRscFre s u := by
  unfold wsBoundaryStep at e
  split at e
  · cases e; exact ⟨⟨⟨.of_ports rfl, fun _ => rfl⟩, rfl⟩, rfl⟩
  · cases e

theorem flushQueue_frame (id : Nat) (s : State) :
    (flushQueue id s).ports = s.ports ∧ (flushQueue id s).rsc = s.rsc ∧ (flushQueue id s).fre = s.fre ∧
      (flushQueue id s).evu = s.evu ∧ (flushQueue id s).pending = s.pending := by
  unfold flushQueue
  split <;> exact ⟨rfl, rfl, rfl, rfl, rfl⟩

theorem queueFlushStep_frame {id : Nat} (e : queueFlushStep id s = some u) : KeepsRscFre s u := by
  unfold queueFlushStep at e
  split at e
  · cases e
    obtain ⟨ports, rsc, fre, evu, -⟩ := flushQueue_frame id (dropAsk (.flush id) s)
    exact ⟨⟨⟨.of_ports ports, evq_of_evu evu⟩, rsc⟩, fre⟩
  · cases e

theorem queueEndingStep_frame {id : Nat} (e : queueEndingStep id s = some u) : KeepsRscFre s u := by
  unfold queueEndingStep at e
  split at e
  · cases e
    obtain ⟨ports, rsc, fre, evu, -⟩ := flushQueue_frame id (dropAsk (.ending id) s)
    exact ⟨⟨⟨.of_ports ports, evq_of_evu evu⟩, rsc⟩, fre⟩
  · cases e

theorem eventTakenStep_frame {src : Emitter} (e : eventTakenStep src h s = some u) :
    OwnerMoves s u ∧ OutsideEvu s u := by
  unfold eventTakenStep at e
  split at e
  · cases e; exact ⟨.of_ports rfl, rfl, rfl⟩
  · cases e

/-! ### The ports' own steps -/

theorem openingStep_blocks (e : openingStep h s = some u) : BlocksKept s u := by
  unfold openingStep at e
  split at e
  · cases e
  · cases e; exact blocksKept_onPort ..

theorem statusStep_blocks {bits : Nat} (e : statusStep h bits s = some u) : BlocksKept s u := by
  unfold statusStep at e
  split at e
  · split at e <;> (cases e; exact blocksKept_onPort ..)
  · cases e

theorem collectStep_blocks {bits : Nat} (e : collectStep h bits s = some u) : BlocksKept s u := by
  unfold collectStep at e
  split at e
  · split at e
    · split at e
      · split at e
        · dsimp only at e
          split at e <;> (cases e; exact ⟨rfl, rfl, rfl, rfl, rfl⟩)
        · cases e; exact blocksKept_onPort ..
      · cases e; exact blocksKept_onPort ..
    · cases e; exact blocksKept_onPort ..
  · cases e

theorem requestStep_blocks {bytes : List Byte} {extraBits : Nat} (e : requestStep h bytes extraBits s = some u) :
    BlocksKept s u := by
  unfold requestStep at e
  dsimp only at e
  split at e
  · exact statusStep_blocks e
  · split at e
    · exact statusStep_blocks e
    · split at e
      · exact collectStep_blocks e
      · split at e
        · split at e <;> (cases e; exact ⟨rfl, rfl, rfl, rfl, rfl⟩)
        · cases e

theorem attachStep_blocks (e : attachStep h s = some u) : BlocksKept s u := by
  unfold attachStep at e
  split at e
  · split at e <;> (cases e; exact blocksKept_answer _ _ _ ⟨rfl, rfl, rfl, rfl, rfl⟩)
  · cases e

theorem detachStep_blocks (e : detachStep h s = some u) : BlocksKept s u := by
  unfold detachStep at e
  split at e
  · split at e
    · cases e
    · cases e; exact blocksKept_answer _ _ _ ⟨rfl, rfl, rfl, rfl, rfl⟩
    · split at e
      · cases e; exact blocksKept_answer _ _ _ ⟨rfl, rfl, rfl, rfl, rfl⟩
      · split at e
        · cases e
        · cases e; exact blocksKept_onPort ..
  · cases e

theorem setAttentionStep_blocks (e : setAttentionStep h s = some u) : BlocksKept s u := by
  unfold setAttentionStep at e
  split at e
  · split at e
    · cases e; exact blocksKept_answer _ _ _ ⟨rfl, rfl, rfl, rfl, rfl⟩
    · split at e <;> (cases e; exact blocksKept_answer _ _ _ ⟨rfl, rfl, rfl, rfl, rfl⟩)
  · cases e

end

end Sys2Proof.Machine
end

section
/-! O35: the laws of the votes, of the format in use and of the transmit lines (R65, R74, R75, R82, R83). They read the
FRE alone, so a step that leaves it keeps them. -/

namespace Sys2Proof.Machine

open Sys2Proof.Safety

/-! ### The laws of an FRE -/

/-- The FRE counts as in a frame. -/
def Fre.framing (f : Fre) : Bool := f.engine.isRunning && !f.leadIn

/-- The three laws, of an FRE. -/
structure EngineLaw (f : Fre) : Prop where
  votes  : noVotes f.votes = true ↔ (f.engine = .stopped ∨ f.engine = .stopping)
  format : f.engine ≠ .stopped → f.inUse = f.fmt
  word   : f.txWord.isSome = f.htxen
  line   : f.htxd.isSome = f.htxen
  rest   : f.framing = false → f.htxen = false ∧ f.slot0Due = false

theorem engineLaw_iff {s : State} : EngineLaw s.fre ↔ VoteLaw s ∧ FormatLaw s ∧ LineLaw s :=
  ⟨fun law => ⟨law.votes, law.format, law.word, law.line, law.rest⟩,
    fun ⟨votes, format, word, line, rest⟩ => ⟨votes, format, word, line, rest⟩⟩

section
variable {f : Fre} (law : EngineLaw f)
include law

theorem EngineLaw.votes_none (stopping : f.engine = .stopping) : noVotes f.votes = true :=
  law.votes.mpr (.inr stopping)

theorem EngineLaw.votes_some {st : EngineState} (at_ : f.engine = st)
    (busy : st = .acquiring ∨ st = .running) : noVotes f.votes ≠ true := fun none => by
  rcases law.votes.mp none with e | e <;> rcases busy with b | b <;> simp [e, b] at at_

theorem EngineLaw.slot0 (due : f.slot0Due = true) : f.framing = true := by
  cases framing : f.framing with
  | true => rfl
  | false => rw [(law.rest framing).2] at due; cases due

end

/-- The laws of an engine that drives no word and is not stopped: those of the votes and the format. -/
theorem engineLaw_of_releaseTx {f : Fre} (votes : noVotes f.votes = true ↔ (f.engine = .stopped ∨ f.engine = .stopping))
    (format : f.engine ≠ .stopped → f.inUse = f.fmt) (rest : f.framing = false → f.slot0Due = false) :
    EngineLaw f.releaseTx :=
  ⟨votes, format, rfl, rfl, fun away => ⟨rfl, rest away⟩⟩

/-- R75, R92: an engine stopped with no vote left. -/
theorem engineLaw_toStopped {f : Fre} (none : noVotes f.votes = true) : EngineLaw f.toStopped :=
  ⟨⟨fun _ => .inl rfl, fun _ => none⟩, fun running => absurd rfl running, rfl, rfl, fun _ => ⟨rfl, rfl⟩⟩

/-! ### Votes (R82, R83) -/

/-- A vote added leaves the set non-empty. -/
theorem noVotes_set_true (v : Quad Bool) (h : HostId) : noVotes (v.set h true) = false := by
  cases h <;> simp [noVotes, Quad.set]

/-- A vote removed from an empty set leaves it empty. -/
theorem noVotes_set_false {v : Quad Bool} (h : HostId) (none : noVotes v = true) :
    noVotes (v.set h false) = true := by
  simp only [noVotes, Bool.and_eq_true, Bool.not_eq_true'] at none ⊢
  obtain ⟨⟨⟨h0, h1⟩, h2⟩, h3⟩ := none
  cases h <;> simp [Quad.set, h0, h1, h2, h3]

/-- R82, R93: a set become non-empty starts a STOPPED engine, or cancels a stop. -/
theorem votesRaised_law {s : State} {v : Quad Bool} (law : EngineLaw s.fre) (before : noVotes s.fre.votes = true)
    (some : noVotes v = false) : EngineLaw (votesRaised (s.onFre fun f => { f with votes := v })).fre := by
  have idle := law.votes.mp before
  unfold votesRaised
  split
  · rename_i stopped
    have at_ : s.fre.engine = .stopped := stopped
    have away : s.fre.framing = false := by simp [Fre.framing, at_, EngineState.isRunning]
    obtain ⟨noWord, noSlot⟩ := law.rest away
    split
    · exact ⟨by simp [Fre.startLeader, some], fun _ => rfl, law.word, law.line, fun _ => ⟨noWord, noSlot⟩⟩
    · exact ⟨by simp [Fre.startFollower, some], fun _ => rfl, law.word, law.line, fun _ => ⟨noWord, noSlot⟩⟩
  · rename_i stopping
    have at_ : s.fre.engine = .stopping := stopping
    refine ⟨by simp [some], fun _ => law.format (by simp [at_]), law.word, law.line, fun away => law.rest ?_⟩
    simpa [Fre.framing, at_, EngineState.isRunning] using away
  · rename_i at_
    exact absurd idle (by simp [show s.fre.engine = .acquiring from at_])
  · rename_i at_
    exact absurd idle (by simp [show s.fre.engine = .running from at_])

/-- R83: a set become empty stops an engine that has no frame in progress, and turns one that has to STOPPING. -/
theorem votesEmptied_law {s : State} {v : Quad Bool} (law : EngineLaw s.fre) (before : noVotes s.fre.votes = false)
    (none : noVotes v = true) : EngineLaw (votesEmptied (s.onFre fun f => { f with votes := v })).fre := by
  have busy : ¬(s.fre.engine = .stopped ∨ s.fre.engine = .stopping) := by
    rw [← law.votes, before]; exact Bool.false_ne_true
  unfold votesEmptied
  split
  · rename_i at_; exact absurd (.inl at_) busy
  · rename_i at_; exact absurd (.inr at_) busy
  · exact engineLaw_toStopped none
  · rename_i running
    have at_ : s.fre.engine = .running := running
    split
    · exact engineLaw_toStopped none
    · refine ⟨by simp [none], fun _ => law.format (by simp [at_]), law.word, law.line, fun away => law.rest ?_⟩
      simpa [Fre.framing, at_, EngineState.isRunning] using away

theorem addVote_law {s : State} (h : HostId) (law : EngineLaw s.fre) : EngineLaw (addVote h s).fre := by
  have after := noVotes_set_true s.fre.votes h
  unfold addVote
  dsimp only
  split
  · rename_i none
    exact votesRaised_law law none after
  · rename_i some
    exact { law with votes := Iff.trans (by simp [after, some]) law.votes }

theorem removeVote_law {s : State} (h : HostId) (law : EngineLaw s.fre) : EngineLaw (removeVote h s).fre := by
  unfold removeVote
  dsimp only
  split
  · rename_i emptied
    simp only [State.onFre_fre, Bool.and_eq_true, Bool.not_eq_true'] at emptied
    exact votesEmptied_law law emptied.2 emptied.1
  · rename_i kept
    have same : noVotes (s.fre.votes.set h false) = true ↔ noVotes s.fre.votes = true :=
      ⟨fun none => by simpa [none] using kept, noVotes_set_false h⟩
    exact { law with votes := same.trans law.votes }

/-! ### Requests and session ends -/

section
variable {s u : State} {h : HostId}

theorem formatStep_law (law : EngineLaw s.fre) (e : formatStep h s = some u) : EngineLaw u.fre := by
  unfold formatStep at e
  split at e
  · rename_i r t taken
    obtain ⟨-, -, rfl⟩ := takeFair_some.mp taken
    split at e
    · cases e; simpa using law
    · rename_i stopped
      split at e
      · cases e; simpa using law
      · split at e
        · split at e
          · cases e; simpa using law
          · cases e
            rw [answer_fre]
            exact { law with format := fun running => absurd running stopped }
        · cases e
  · cases e

theorem runStep_law (law : EngineLaw s.fre) (e : runStep h s = some u) : EngineLaw u.fre := by
  unfold runStep at e
  split at e
  · rename_i r t taken
    obtain ⟨-, -, rfl⟩ := takeFair_some.mp taken
    cases e
    rw [answer_fre]
    exact addVote_law h law
  · cases e

theorem haltStep_law (law : EngineLaw s.fre) (e : haltStep h s = some u) : EngineLaw u.fre := by
  unfold haltStep at e
  split at e
  · rename_i r t taken
    obtain ⟨-, -, rfl⟩ := takeFair_some.mp taken
    cases e
    rw [answer_fre]
    exact removeVote_law h law
  · cases e

theorem freSessionEndStep_law (law : EngineLaw s.fre) (e : freSessionEndStep h s = some u) : EngineLaw u.fre := by
  unfold freSessionEndStep at e
  split at e
  · cases e
    rw [report_fre]
    exact removeVote_law h law
  · cases e

/-! ### Boundaries, lock and its loss -/

theorem leadInEndStep_law (law : EngineLaw s.fre) (e : leadInEndStep s = some u) : EngineLaw u.fre := by
  unfold leadInEndStep at e
  split at e
  · rename_i ready
    cases e
    refine { law with rest := fun away => ?_ }
    have framing : Fre.framing { s.fre with leadIn := false } = false := away
    simp [Fre.framing, ready.1, EngineState.isRunning] at framing
  · cases e

theorem risingNext_framing (rising : risingNext s = true) : s.fre.framing = true := by
  simp only [risingNext, Bool.and_eq_true] at rising
  obtain ⟨⟨⟨framing, -⟩, -⟩, -⟩ := rising
  exact framing

theorem frameBoundaryStep_law (law : EngineLaw s.fre) (e : frameBoundaryStep s = some u) : EngineLaw u.fre := by
  unfold frameBoundaryStep at e
  dsimp only at e
  split at e
  · rename_i ready
    have framing := risingNext_framing ready.1
    split at e
    · rename_i stopping
      cases e
      exact engineLaw_toStopped (law.votes_none stopping)
    · cases e
      exact { law with rest := fun away => absurd (framing.symm.trans away) Bool.noConfusion }
  · cases e

theorem expectedInstantStep_law (law : EngineLaw s.fre) (e : expectedInstantStep s = some u) :
    EngineLaw u.fre := by
  unfold expectedInstantStep at e
  split at e
  · rename_i ready
    have framing := risingNext_framing ready.1
    cases e
    rw [State.onFre_fre]
    split
    · exact { law with rest := fun away => absurd (framing.symm.trans away) Bool.noConfusion }
    · exact { engineLaw_of_releaseTx law.votes law.format fun away => (law.rest away).2 with }
  · cases e

/-- R90, R94: a loss of lock in a frame leaves no word on the lines. -/
theorem loseLock_law {acq : Option Nat} (law : EngineLaw s.fre) (running : s.fre.engine.isRunning = true) :
    EngineLaw (loseLock acq s).fre := by
  unfold loseLock
  dsimp only
  split
  · rename_i stopping
    exact { engineLaw_toStopped (f := s.fre) (law.votes_none stopping) with }
  · rename_i notStopping
    have at_ : s.fre.engine = .running := by
      cases now : s.fre.engine <;> simp [now, EngineState.isRunning] at running notStopping ⊢
    have some := law.votes_some at_ (.inr rfl)
    exact ⟨⟨fun none => absurd none some, by simp⟩, fun _ => law.format (by simp [at_]), rfl, rfl,
      fun _ => ⟨rfl, rfl⟩⟩

/-- R86: lock opens a frame with no word on the lines and no start of slot 0 due. -/
theorem lockStep_law {rxd : Bool} (law : EngineLaw s.fre) (acquiring : s.fre.engine = .acquiring) :
    EngineLaw (lockStep rxd s).fre := by
  have some := law.votes_some acquiring (.inl rfl)
  have away : s.fre.framing = false := by simp [Fre.framing, acquiring, EngineState.isRunning]
  obtain ⟨noWord, -⟩ := law.rest away
  exact ⟨⟨fun none => absurd none some, by simp [lockStep]⟩, fun _ => law.format (by simp [acquiring]), law.word,
    law.line, fun _ => ⟨noWord, rfl⟩⟩

theorem applyTraffic_fre (k : Word) (t : Option Traffic) (s : State) : (applyTraffic k t s).fre = s.fre :=
  (applyTraffic_rest s k t).2.1

theorem confirmStep_law {k : Word} {r : BoundaryResult} {rxd : Bool} (law : EngineLaw s.fre) :
    EngineLaw (confirmStep k r rxd s).fre := by
  unfold confirmStep
  dsimp only
  split
  · rename_i stopping
    exact engineLaw_toStopped (law.votes_none stopping)
  · rw [State.onFre_fre, applyTraffic_fre]
    exact { law with }

theorem frameSyncStep_law {rxd : Bool} (law : EngineLaw s.fre) (e : frameSyncStep rxd s = some u) :
    EngineLaw u.fre := by
  unfold frameSyncStep at e
  split at e
  · split at e
    · cases e
    · rename_i acquiring
      split at e
      · cases e; exact lockStep_law law acquiring
      · cases e; exact { law with }
    all_goals
      rename_i at_
      split at e
      · split at e
        · cases e; exact confirmStep_law law
        · cases e
        · cases e; exact { loseLock_law law (by rw [at_]; rfl) with }
      · cases e
  · cases e

theorem missingSyncStep_law {hfsync : Bool} (law : EngineLaw s.fre) (e : missingSyncStep hfsync s = some u) :
    EngineLaw u.fre := by
  unfold missingSyncStep at e
  split at e
  · split at e
    · rename_i ready
      cases e; exact { loseLock_law law ready.1 with }
    · cases e
  · cases e
  · cases e

/-! ### Slots and bit clocks -/

/-- R74: what a slot start puts on the lines in a frame. -/
theorem putSlot_law (p : SlotPlan) (law : EngineLaw s.fre) (framing : s.fre.framing = true) :
    EngineLaw (putSlot p s).fre := by
  rw [putSlot_fre]
  exact { law with
    word := rfl
    line := by simp
    rest := fun away => absurd (framing.symm.trans away) Bool.noConfusion }

theorem nextSlotStart_framing {slot : Nat} (next : nextSlotStart s = some slot) : s.fre.framing = true := by
  unfold nextSlotStart at next
  split at next
  · split at next
    · rename_i ready; exact ready.1
    · cases next
  · split at next
    · rename_i ready; exact risingNext_framing ready.1
    · cases next

theorem slotStartStep_law (law : EngineLaw s.fre) (e : slotStartStep s = some u) : EngineLaw u.fre := by
  unfold slotStartStep at e
  split at e
  · rename_i slot next
    split at e
    · dsimp only at e
      have put (k : Word) (p : SlotPlan) : EngineLaw (applyTraffic k p.traffic (putSlot p s)).fre := by
        rw [applyTraffic_fre]
        exact putSlot_law p law (nextSlotStart_framing next)
      split at e
      · cases e; exact put ..
      · cases e; exact { put s.fre.frame (planSlot s s.rsc.map s.rsc.records slot) with }
    · cases e
  · cases e

theorem awaitingStep_law (law : EngineLaw s.fre) (e : awaitingStep s = some u) : EngineLaw u.fre := by
  unfold awaitingStep at e
  split at e
  · rename_i k _
    dsimp only at e
    split at e
    · rename_i due
      cases e
      exact { putSlot_law (s := s.onRsc fun c => { c with awaiting := some (.worked k _) })
        (planSlot s (runProcedure k s.ws.queues s.rsc.records).map
          (runProcedure k s.ws.queues s.rsc.records).records 0) law (law.slot0 due) with }
    · cases e; exact law
  · cases e

theorem offerAll_fre (os : List Offer) (s : State) : (offerAll os s).fre = s.fre := (offerAll_frame os s).2.2.1

theorem slotEndStep_law {hfsync rxd : Bool} (law : EngineLaw s.fre) (e : slotEndStep hfsync rxd s = some u) :
    EngineLaw u.fre := by
  unfold slotEndStep at e
  split at e
  · cases e
    rw [State.onFre_fre, offerAll_fre]
    exact { law with }
  · cases e

theorem riseInFrame_law {f : Fre} (law : EngineLaw f) : EngineLaw f.riseInFrame := by
  unfold Fre.riseInFrame
  dsimp only
  split
  · exact { law with line := by simpa using law.word }
  · exact engineLaw_of_releaseTx law.votes law.format fun away => (law.rest away).2

theorem fallInFrame_law {f : Fre} {hfsync rxd : Bool} (law : EngineLaw f) :
    EngineLaw (f.fallInFrame hfsync rxd) := by
  unfold Fre.fallInFrame
  dsimp only
  split <;> exact { law with }

theorem bitClockStep_law {edge : Edge} {hfsync rxd : Bool} (law : EngineLaw s.fre)
    (e : bitClockStep edge hfsync rxd s = some u) : EngineLaw u.fre := by
  unfold bitClockStep at e
  split at e
  · cases e
  · cases e; exact { law with }
  · split at e
    · cases e
    · cases e; exact { law with }
  · split at e
    · cases e; exact riseInFrame_law law
    · cases e
  · split at e
    · cases e; exact fallInFrame_law law
    · cases e

end

theorem engineLaw_reset : EngineLaw Fre.reset :=
  ⟨by simp [Fre.reset, noVotes, Quad.all], fun running => absurd rfl running, rfl, rfl, fun _ => ⟨rfl, rfl⟩⟩

/-! ### Every command -/

section
variable {s t : State} {o : Option State} (law : EngineLaw s.fre) (ran : settle s o = .next t)

include law ran

theorem settle_engineLaw (keeps : ∀ {u}, o = some u → EngineLaw u.fre) : EngineLaw t.fre := by
  obtain ⟨u, stepped, rfl⟩ | ⟨-, rfl⟩ := settle_next ran
  · rw [State.refreshAtn_fre]; exact keeps stepped
  · exact law

theorem settle_engineLaw_of_fre (same : ∀ {u}, o = some u → u.fre = s.fre) : EngineLaw t.fre :=
  settle_engineLaw law ran fun stepped => same stepped ▸ law

theorem settle_engineLaw_of_blocks (same : ∀ {u}, o = some u → BlocksKept s u) : EngineLaw t.fre :=
  settle_engineLaw_of_fre law ran fun stepped => (same stepped).2.1

end

theorem exec_engineLaw {s t : State} (c : Instr) (law : EngineLaw s.fre) (ran : exec c s = .next t) :
    EngineLaw t.fre := by
  cases c with
  | status => exact settle_engineLaw_of_blocks law ran statusStep_blocks
  | collect => exact settle_engineLaw_of_blocks law ran collectStep_blocks
  | requestFrame => exact settle_engineLaw_of_blocks law ran requestStep_blocks
  | attach => exact settle_engineLaw_of_blocks law ran attachStep_blocks
  | detach => exact settle_engineLaw_of_blocks law ran detachStep_blocks
  | setAttention => exact settle_engineLaw_of_blocks law ran setAttentionStep_blocks
  | transactionOpening => exact settle_engineLaw_of_blocks law ran openingStep_blocks
  | claim => exact settle_engineLaw_of_fre law ran fun e => (claimStep_frame e).fre
  | release => exact settle_engineLaw_of_fre law ran fun e => (releaseStep_frame e).fre
  | renew => exact settle_engineLaw_of_fre law ran fun e => (renewStep_frame e).fre
  | querySlot => exact settle_engineLaw_of_fre law ran fun e => (querySlotStep_frame e).fre
  | format => exact settle_engineLaw law ran (formatStep_law law)
  | run => exact settle_engineLaw law ran (runStep_law law)
  | halt => exact settle_engineLaw law ran (haltStep_law law)
  | queryEngine => exact settle_engineLaw_of_fre law ran fun e => (queryEngineStep_frame e).fre
  | setQuota => exact settle_engineLaw_of_fre law ran fun e => (setQuotaStep_frame e).fre
  | queryHost => exact settle_engineLaw_of_fre law ran fun e => (queryHostStep_frame e).fre
  | writeWords => exact settle_engineLaw_of_fre law ran fun e => (writeWordsStep_frame e).fre
  | readWords => exact settle_engineLaw_of_fre law ran fun e => (readWordsStep_frame e).fre
  | clearOverflow => exact settle_engineLaw_of_fre law ran fun e => (clearOverflowStep_frame e).fre
  | nextEvents => exact settle_engineLaw_of_fre law ran fun e => (nextEventsStep_frame e).2.fre
  | rscSessionEnd => exact settle_engineLaw_of_fre law ran fun e => (rscSessionEndStep_frame e).fre
  | wsSessionEnd => exact settle_engineLaw_of_fre law ran fun e => (wsSessionEndStep_frame e).fre
  | evuSessionEnd => exact settle_engineLaw_of_fre law ran fun e => (evuSessionEndStep_frame e).fre
  | freSessionEnd => exact settle_engineLaw law ran (freSessionEndStep_law law)
  | boundaryProcedure => exact settle_engineLaw_of_fre law ran fun e => (boundaryStep_frame e).fre
  | leaseExpiry => exact settle_engineLaw_of_fre law ran fun e => (leaseExpiryStep_frame e).fre
  | awaitingConfirmationNotice => exact settle_engineLaw law ran (awaitingStep_law law)
  | leadInEnd => exact settle_engineLaw law ran (leadInEndStep_law law)
  | frameBoundary => exact settle_engineLaw law ran (frameBoundaryStep_law law)
  | expectedInstant => exact settle_engineLaw law ran (expectedInstantStep_law law)
  | frameSync => exact settle_engineLaw law ran (frameSyncStep_law law)
  | missingSync => exact settle_engineLaw law ran (missingSyncStep_law law)
  | slotStart => exact settle_engineLaw law ran (slotStartStep_law law)
  | slotEnd => exact settle_engineLaw law ran (slotEndStep_law law)
  | bitClock => exact settle_engineLaw law ran (bitClockStep_law law)
  | rxOffer => exact settle_engineLaw_of_fre law ran fun e => (rxOfferStep_frame e).fre
  | lossNotice => exact settle_engineLaw_of_fre law ran fun e => (lossNoticeStep_frame e).fre
  | wsBoundaryNotice => exact settle_engineLaw_of_fre law ran fun e => (wsBoundaryStep_frame e).fre
  | eventTaken => exact settle_engineLaw_of_fre law ran fun e => (eventTakenStep_frame e).2.fre
  | queueFlush => exact settle_engineLaw_of_fre law ran fun e => (queueFlushStep_frame e).fre
  | queueEnding => exact settle_engineLaw_of_fre law ran fun e => (queueEndingStep_frame e).fre
  | partReset =>
    cases ran
    exact engineLaw_reset
  | refclkStop => exact nomatch ran

/-- Settles O35: every command keeps the laws of the FRE, whichever stands at the front of the queue. -/
theorem engineLawsAreKept : Obligations.EngineLawsAreKept := by
  intro s t votes format line stepped
  have law : EngineLaw s.fre := engineLaw_iff.mpr ⟨votes, format, line⟩
  refine engineLaw_iff.mp ?_
  unfold step at stepped
  split at stepped
  · rename_i c rest _
    exact exec_engineLaw (s := { s with pending := rest }) c law stepped
  · cases stepped; exact law

end Sys2Proof.Machine
end

section
/-! O13: the laws of the ports, of SDOn, of the event queues and of ATN (R149, R159, R160, R169, R170, R173). ATN is
brought up to date by every step; the other laws are laws of one host, its port and its event queue. -/

namespace Sys2Proof.Machine

open Sys2Proof.Safety

/-! ### The laws of one host -/

/-- The port law, the SDOn law and the event law, of a port and its event queue. -/
structure HostLaw (p : Port) (q : EvQueue) : Prop where
  port   : portOk p
  driven : p.sdoLine.isSome = true ↔ p.framer ≠ .idle
  select : p.framer ≠ .idle → p.selLow = true
  events : q.events.length ≤ Config.maxEvents
  quiet  : p.state ≠ .attached → p.toReport.evu = false → q.events = []

def HostLaws (s : State) : Prop := ∀ g, HostLaw (s.port g) (s.evq g)

theorem hostLaws_iff {s : State} : HostLaws s ↔ PortLaw s ∧ EventLaw s ∧ SdoLaw s :=
  ⟨fun laws => ⟨fun g => (laws g).port, fun g => ⟨(laws g).events, (laws g).quiet⟩,
      fun g => ⟨(laws g).driven, (laws g).select⟩⟩,
    fun ⟨port, event, sdo⟩ g => ⟨port g, (sdo g).1, (sdo g).2, (event g).1, (event g).2⟩⟩

theorem portOk_portView {p : Port} : portOk (portView p) ↔ portOk p := by
  unfold portOk portView
  cases p.inProgress with
  | none => simp
  | some r => simp

theorem hostLaw_portView {p : Port} {q : EvQueue} : HostLaw (portView p) q ↔ HostLaw p q :=
  ⟨fun law => ⟨portOk_portView.mp law.port, law.driven, law.select, law.events, law.quiet⟩,
    fun law => ⟨portOk_portView.mpr law.port, law.driven, law.select, law.events, law.quiet⟩⟩

section
variable {p : Port} {q : EvQueue} (law : HostLaw p q)
include law

/-- A request other than DETACH is never in progress at a DETACHING port. -/
theorem HostLaw.not_detaching {r : Request} (asked : p.inProgress = some r) (notDetach : r.kind ≠ .detach) :
    p.state ≠ .detaching := fun detaching => by
  obtain ⟨-, inDetaching, -⟩ := law.port
  obtain ⟨⟨r', asked', isDetach⟩, -⟩ := inDetaching detaching
  rw [asked, Option.some.injEq] at asked'
  exact notDetach (asked' ▸ isDetach)

theorem HostLaw.answered (away : p.state ≠ .detaching) (x : Response) :
    HostLaw { p with inProgress := none, held := some x } q := by
  obtain ⟨-, -, reported, masked⟩ := law.port
  exact { law with port := ⟨nofun, fun detaching => absurd detaching away, reported, masked⟩ }

/-- R170: a report leaves the port DETACHING with owners yet to report, or DETACHED with its DETACH answered. -/
theorem HostLaw.reported {left : Owners} (due : p.toReport.isEmpty = false)
    (evu : left.evu = false → p.toReport.evu = false ∨ q.events = []) : HostLaw (reportedPort p left) q := by
  obtain ⟨one, inDetaching, noneDue, masked⟩ := law.port
  have detaching : p.state = .detaching := by
    by_contra away
    rw [noneDue away] at due
    cases due
  have notAttached : p.state ≠ .attached := by simp [detaching]
  have quiet (done : left.evu = false) : q.events = [] := (evu done).elim (law.quiet notAttached) id
  obtain ⟨⟨r, asked, isDetach⟩, -⟩ := inDetaching detaching
  unfold reportedPort
  split
  · rename_i empty
    simp only [asked]
    exact { law with
      port := ⟨nofun, nofun, fun _ => empty, fun _ => masked notAttached⟩
      quiet := fun _ => quiet }
  · rename_i some
    exact { law with
      port := ⟨one, fun _ => ⟨⟨r, asked, isDetach⟩, by simpa using some⟩, fun away => absurd detaching away, masked⟩
      quiet := fun _ => quiet }

end

theorem OwnerMove.hostLaw {p p' : Port} {q : EvQueue} (move : OwnerMove p p') (law : HostLaw p q) :
    HostLaw p' q := by
  have viewed := hostLaw_portView.mpr law
  rw [← hostLaw_portView]
  cases move with
  | kept same => rwa [same]
  | answered r x asked notDetach view =>
    rw [view]
    exact viewed.answered (law.not_detaching asked notDetach) x
  | read r x asked notDetach kind view =>
    rw [view]
    have away := law.not_detaching asked notDetach
    obtain ⟨one, -, noneDue, masked⟩ := law.port
    exact { viewed with
      port := ⟨fun _ => one (by simp [asked]), fun detaching => absurd detaching away, noneDue, masked⟩ }
  | reported left due evu view =>
    rw [view]
    exact viewed.reported due fun done => .inl (evu ▸ done)

/-! ### Updates of a host -/

theorem PortsMoved.hostLaws {s u : State} (moved : PortsMoved s u) (laws : HostLaws s) : HostLaws u := fun g => by
  rw [moved.evq g]
  exact (moved.moves g).hostLaw (laws g)

theorem HostLaws.onPort {s : State} {h : HostId} {f : Port → Port} (laws : HostLaws s)
    (own : HostLaw (f (s.port h)) (s.evq h)) : HostLaws (s.onPort h f) := fun g => by
  rw [State.onPort_evq]
  by_cases e : g = h
  · subst e; rwa [State.onPort_port_self]
  · rw [State.onPort_port_ne s f e]; exact laws g

theorem HostLaws.onEvq {s : State} {h : HostId} {f : EvQueue → EvQueue} (laws : HostLaws s)
    (own : HostLaw (s.port h) (f (s.evq h))) : HostLaws (s.onEvq h f) := fun g => by
  rw [State.onEvq_port]
  by_cases e : g = h
  · subst e; rwa [State.onEvq_evq_self]
  · rw [State.onEvq_evq_ne s f e]; exact laws g

/-- The port's own answer, which may be to a DETACH. -/
theorem HostLaws.answer {s : State} {h : HostId} (res : Result) (x : List Byte) (laws : HostLaws s)
    (away : (s.port h).state ≠ .detaching) : HostLaws (answer h res x s) := by
  unfold Machine.answer
  split
  · exact laws.onPort ((laws h).answered away _)
  · exact laws

/-! ### Transactions (R159 to R167) -/

/-- The end of a transaction touches neither the session nor what is in progress or held. -/
theorem HostLaw.ended {p : Port} {q : EvQueue} (law : HostLaw p q) (status : Byte) (stream : List Byte) (bits : Nat) :
    HostLaw { clearShown status bits p with
      framer := .idle, selLow := false, sdoLine := none, sdo := shiftOut stream bits } q := by
  unfold clearShown
  split <;> exact { law with driven := by simp, select := by simp }

theorem HostLaws.endTransaction {s : State} (laws : HostLaws s) (h : HostId) (status : Byte) (stream : List Byte)
    (bits : Nat) : HostLaws (endTransaction h status stream bits s) :=
  laws.onPort ((laws h).ended status stream bits)

theorem HostLaws.endSelect {s : State} {h : HostId} (laws : HostLaws s) (idle : (s.port h).framer = .idle) :
    HostLaws (endSelect h s) :=
  laws.onPort { laws h with select := fun open_ => absurd idle open_ }

/-- R163: a frame is taken only into an idle port that is not DETACHING. -/
theorem HostLaw.judged {p : Port} {q : EvQueue} (law : HostLaw p q) (f : Frame) : HostLaw (judgeFrame f p) q := by
  obtain ⟨one, -, noneDue, masked⟩ := law.port
  unfold judgeFrame
  split
  · exact { law with }
  · rename_i free
    obtain ⟨idle, unheld, away⟩ : p.inProgress = none ∧ p.held = none ∧ p.state ≠ .detaching := by simpa using free
    have held (x : Response) : HostLaw { p with held := some x } q :=
      { law with port := ⟨fun busy => by simp [idle] at busy, fun d => absurd d away, noneDue, masked⟩ }
    split
    · exact held _
    · split
      · exact held _
      · exact { law with port := ⟨fun _ => unheld, fun d => absurd d away, noneDue, masked⟩ }

theorem HostLaw.received {p : Port} {q : EvQueue} (law : HostLaw p q) (bytes : List Byte) (extraBits : Nat) :
    HostLaw (receiveFrame bytes extraBits p) q := by
  unfold receiveFrame
  split
  · exact law.judged _
  · exact { law with }

/-- R152: an event is queued only at an ATTACHED port, and only where there is room. -/
theorem HostLaw.tookEvent {p : Port} {q : EvQueue} (law : HostLaw p q) (e : Event) :
    HostLaw p (takeEvent e p.state q) := by
  by_cases attached : p.state = .attached
  · refine { law with events := ?_, quiet := fun not => absurd attached not }
    by_cases room : q.events.length < Config.maxEvents
    · rw [takeEvent_of_room e (not_not.mpr attached) room]
      simpa using room
    · rw [takeEvent_of_full e (not_not.mpr attached) room]
      exact law.events
  · rw [takeEvent_of_not_attached e attached]
    exact law

section
variable {s u : State} {h : HostId} (laws : HostLaws s)
include laws

theorem openingStep_laws (e : openingStep h s = some u) : HostLaws u := by
  unfold openingStep at e
  split at e
  · cases e
  · cases e
    exact laws.onPort { laws h with driven := by simp, select := fun _ => rfl }

theorem statusStep_laws {bits : Nat} (e : statusStep h bits s = some u) : HostLaws u := by
  unfold statusStep at e
  split at e
  · split at e
    · cases e; exact laws.endTransaction _ _ _ _
    · rename_i idle
      cases e; exact laws.endSelect idle
  · cases e

theorem collectStep_laws {bits : Nat} (e : collectStep h bits s = some u) : HostLaws u := by
  unfold collectStep at e
  split at e
  · split at e
    · rename_i status _
      split at e
      · rename_i r held
        split at e
        · dsimp only at e
          have ended := laws.endTransaction h status (status :: responseFrame r) bits
          split at e
          · cases e
            refine ended.onPort { ended h with port := ?_ }
            obtain ⟨-, inDetaching, noneDue, masked⟩ := (ended h).port
            exact ⟨fun _ => rfl, inDetaching, noneDue, masked⟩
          · cases e; exact ended
        · cases e; exact laws.endTransaction _ _ _ _
      · cases e; exact laws.endTransaction _ _ _ _
    · rename_i idle
      cases e; exact laws.endSelect idle
  · cases e

theorem requestStep_laws {bytes : List Byte} {extraBits : Nat} (e : requestStep h bytes extraBits s = some u) :
    HostLaws u := by
  unfold requestStep at e
  dsimp only at e
  split at e
  · exact statusStep_laws laws e
  · split at e
    · exact statusStep_laws laws e
    · split at e
      · exact collectStep_laws laws e
      · split at e
        · split at e
          · rename_i status _
            cases e
            have ended := laws.endTransaction h status [status]
            exact (ended _).onPort ((ended _ h).received ..)
          · rename_i idle
            cases e; exact laws.endSelect idle
        · cases e

/-! ### The port's own requests (R168 to R173) -/

theorem attachStep_laws (e : attachStep h s = some u) : HostLaws u := by
  unfold attachStep at e
  split at e
  · rename_i r found
    obtain ⟨asked, kind⟩ := requestOf_some.mp found
    have away := (laws h).not_detaching asked (by rw [kind]; nofun)
    split at e
    · cases e; exact laws.answer _ _ away
    · cases e
      obtain ⟨one, -, noneDue, -⟩ := (laws h).port
      refine HostLaws.answer _ _ (laws.onPort { laws h with port := ?_, quiet := ?_ }) (by simp)
      · exact ⟨one, nofun, fun _ => noneDue away, fun not => absurd rfl not⟩
      · exact fun not => absurd rfl not
  · cases e

theorem detachStep_laws (e : detachStep h s = some u) : HostLaws u := by
  unfold detachStep at e
  split at e
  · rename_i r found
    obtain ⟨asked, kind⟩ := requestOf_some.mp found
    split at e
    · cases e
    · rename_i at_
      cases e; exact laws.answer _ _ (by simp [at_])
    · rename_i at_
      split at e
      · cases e; exact laws.answer _ _ (by simp [at_])
      · split at e
        · cases e
        · cases e
          obtain ⟨one, -⟩ := (laws h).port
          refine laws.onPort { laws h with port := ?_, quiet := nofun }
          exact ⟨one, fun _ => ⟨⟨r, asked, kind⟩, rfl⟩, fun not => absurd rfl not, fun _ => rfl⟩
  · cases e

theorem setAttentionStep_laws (e : setAttentionStep h s = some u) : HostLaws u := by
  unfold setAttentionStep at e
  split at e
  · rename_i r found
    obtain ⟨asked, kind⟩ := requestOf_some.mp found
    have away := (laws h).not_detaching asked (by rw [kind]; nofun)
    split at e
    · cases e; exact laws.answer _ _ away
    · rename_i attached
      split at e
      · cases e
        obtain ⟨one, inDetaching, noneDue, -⟩ := (laws h).port
        refine HostLaws.answer _ _ (laws.onPort { laws h with port := ?_ }) (by simpa using away)
        exact ⟨one, inDetaching, noneDue, fun not => absurd not attached⟩
      · cases e; exact laws.answer _ _ away
  · cases e

/-! ### The EVU (R149, R152, R155, R157) -/

theorem nextEventsStep_laws (e : nextEventsStep h s = some u) : HostLaws u := by
  unfold nextEventsStep at e
  split at e
  · rename_i r found
    obtain ⟨asked, kind⟩ := requestOf_some.mp found
    have away := (laws h).not_detaching asked (by rw [kind]; nofun)
    split at e
    · cases e; exact laws.answer _ _ away
    · rename_i m _
      cases e
      refine HostLaws.answer _ _ (laws.onEvq { laws h with events := ?_, quiet := fun not done => ?_ }) away
      · have := (laws h).events
        simp only [List.length_drop]
        omega
      · simp [(laws h).quiet not done]
  · cases e

theorem eventTakenStep_laws {src : Emitter} (e : eventTakenStep src h s = some u) : HostLaws u := by
  unfold eventTakenStep at e
  split at e
  · rename_i ev rest _
    cases e
    have queues (g : HostId) : ({ s with evu := setHanded s.evu src rest } : State).evq g = s.evq g := by
      rw [State.evq, setHanded_queues, State.evq]
    refine HostLaws.onEvq (fun g => by rw [queues]; exact laws g) ?_
    rw [queues]
    exact (laws h).tookEvent ev
  · cases e

theorem evuSessionEndStep_laws (e : evuSessionEndStep h s = some u) : HostLaws u := by
  unfold evuSessionEndStep at e
  split at e
  · rename_i due
    cases e
    have emptied : HostLaws (s.onEvq h fun _ => ⟨[], false⟩) :=
      laws.onEvq { laws h with events := Nat.zero_le _, quiet := fun _ _ => rfl }
    intro g
    rw [report_evq]
    by_cases own : g = h
    · subst own
      rw [report_port_self]
      exact (emptied g).reported (owners_due (.inr (.inr (.inl due)))) fun _ => .inr (by simp)
    · rw [report_port_ne _ _ _ own]; exact emptied g
  · cases e

end

theorem hostLaws_resetPart (s : State) : HostLaws (resetPart s) := fun g => by
  have port : (resetPart s).port g = { Port.reset with selLow := (s.port g).selLow } := Quad.get_mapHosts ..
  have evq : (resetPart s).evq g = ⟨[], false⟩ := Quad.get_all ..
  rw [port, evq]
  exact ⟨⟨nofun, nofun, fun _ => rfl, fun _ => rfl⟩, by simp [Port.reset], by simp [Port.reset], Nat.zero_le _,
    fun _ _ => rfl⟩

/-! ### Every command -/

section
variable {s t : State} {o : Option State} (law : AtnLaw s ∧ HostLaws s) (ran : settle s o = .next t)

include law ran

theorem settle_hostLaws (keeps : ∀ {u}, o = some u → HostLaws u) : AtnLaw t ∧ HostLaws t := by
  obtain ⟨u, stepped, rfl⟩ | ⟨-, rfl⟩ := settle_next ran
  · refine ⟨refreshAtn_atnLaw u, fun g => ?_⟩
    rw [← hostLaw_portView, portView_refreshAtn, hostLaw_portView]
    exact keeps stepped g
  · exact law

theorem settle_hostLaws_of_moved (moved : ∀ {u}, o = some u → PortsMoved s u) : AtnLaw t ∧ HostLaws t :=
  settle_hostLaws law ran fun stepped => (moved stepped).hostLaws law.2

end

theorem atnLaw_resetPart (s : State) : AtnLaw (resetPart s) := fun g => by
  have port : (resetPart s).port g = { Port.reset with selLow := (s.port g).selLow } := Quad.get_mapHosts ..
  simp [attentionNow, port, Port.reset, attention]

theorem exec_hostLaws {s t : State} (c : Instr) (law : AtnLaw s ∧ HostLaws s) (ran : exec c s = .next t) :
    AtnLaw t ∧ HostLaws t := by
  have laws := law.2
  cases c with
  | status => exact settle_hostLaws law ran (statusStep_laws laws)
  | collect => exact settle_hostLaws law ran (collectStep_laws laws)
  | requestFrame => exact settle_hostLaws law ran (requestStep_laws laws)
  | attach => exact settle_hostLaws law ran (attachStep_laws laws)
  | detach => exact settle_hostLaws law ran (detachStep_laws laws)
  | setAttention => exact settle_hostLaws law ran (setAttentionStep_laws laws)
  | transactionOpening => exact settle_hostLaws law ran (openingStep_laws laws)
  | claim => exact settle_hostLaws_of_moved law ran fun e => (claimStep_frame e).toPortsMoved
  | release => exact settle_hostLaws_of_moved law ran fun e => (releaseStep_frame e).toPortsMoved
  | renew => exact settle_hostLaws_of_moved law ran fun e => (renewStep_frame e).toPortsMoved
  | querySlot => exact settle_hostLaws_of_moved law ran fun e => (querySlotStep_frame e).toPortsMoved
  | format => exact settle_hostLaws_of_moved law ran fun e => (formatStep_frame e).toPortsMoved
  | run => exact settle_hostLaws_of_moved law ran fun e => (runStep_frame e).toPortsMoved
  | halt => exact settle_hostLaws_of_moved law ran fun e => (haltStep_frame e).toPortsMoved
  | queryEngine => exact settle_hostLaws_of_moved law ran fun e => (queryEngineStep_frame e).toPortsMoved
  | setQuota => exact settle_hostLaws_of_moved law ran fun e => (setQuotaStep_frame e).toPortsMoved
  | queryHost => exact settle_hostLaws_of_moved law ran fun e => (queryHostStep_frame e).toPortsMoved
  | writeWords => exact settle_hostLaws_of_moved law ran fun e => (writeWordsStep_frame e).toPortsMoved
  | readWords => exact settle_hostLaws_of_moved law ran fun e => (readWordsStep_frame e).toPortsMoved
  | clearOverflow => exact settle_hostLaws_of_moved law ran fun e => (clearOverflowStep_frame e).toPortsMoved
  | nextEvents => exact settle_hostLaws law ran (nextEventsStep_laws laws)
  | rscSessionEnd => exact settle_hostLaws_of_moved law ran fun e => (rscSessionEndStep_frame e).toPortsMoved
  | wsSessionEnd => exact settle_hostLaws_of_moved law ran fun e => (wsSessionEndStep_frame e).toPortsMoved
  | evuSessionEnd => exact settle_hostLaws law ran (evuSessionEndStep_laws laws)
  | freSessionEnd => exact settle_hostLaws_of_moved law ran fun e => (freSessionEndStep_frame e).toPortsMoved
  | boundaryProcedure => exact settle_hostLaws_of_moved law ran fun e => (boundaryStep_frame e).toPortsMoved
  | leaseExpiry => exact settle_hostLaws_of_moved law ran fun e => (leaseExpiryStep_frame e).toPortsMoved
  | awaitingConfirmationNotice => exact settle_hostLaws_of_moved law ran awaitingStep_frame
  | leadInEnd => exact settle_hostLaws_of_moved law ran leadInEndStep_frame
  | frameBoundary => exact settle_hostLaws_of_moved law ran frameBoundaryStep_frame
  | expectedInstant => exact settle_hostLaws_of_moved law ran expectedInstantStep_frame
  | frameSync => exact settle_hostLaws_of_moved law ran frameSyncStep_frame
  | missingSync => exact settle_hostLaws_of_moved law ran missingSyncStep_frame
  | slotStart => exact settle_hostLaws_of_moved law ran slotStartStep_frame
  | slotEnd => exact settle_hostLaws_of_moved law ran fun e => (slotEndStep_frame e).toPortsMoved
  | bitClock => exact settle_hostLaws_of_moved law ran fun e => (bitClockStep_frame e).toPortsMoved
  | rxOffer => exact settle_hostLaws_of_moved law ran fun e => (rxOfferStep_frame e).toPortsMoved
  | lossNotice => exact settle_hostLaws_of_moved law ran fun e => (lossNoticeStep_frame e).toPortsMoved
  | wsBoundaryNotice => exact settle_hostLaws_of_moved law ran fun e => (wsBoundaryStep_frame e).toPortsMoved
  | eventTaken => exact settle_hostLaws law ran (eventTakenStep_laws laws)
  | queueFlush => exact settle_hostLaws_of_moved law ran fun e => (queueFlushStep_frame e).toPortsMoved
  | queueEnding => exact settle_hostLaws_of_moved law ran fun e => (queueEndingStep_frame e).toPortsMoved
  | partReset =>
    cases ran
    exact ⟨atnLaw_resetPart s, hostLaws_resetPart s⟩
  | refclkStop => exact nomatch ran

/-- Settles O13: every command keeps the laws of every host, and brings ATN up to date. -/
theorem portEventAndAtnLawsAreKept : Obligations.PortEventAndAtnLawsAreKept := by
  intro s t port event atn sdo stepped
  have law : AtnLaw s ∧ HostLaws s := ⟨atn, hostLaws_iff.mpr ⟨port, event, sdo⟩⟩
  have kept : AtnLaw t ∧ HostLaws t := by
    unfold step at stepped
    split at stepped
    · rename_i c rest _
      exact exec_hostLaws (s := { s with pending := rest }) c law stepped
    · cases stepped; exact law
  obtain ⟨atn', laws'⟩ := kept
  obtain ⟨port', event', sdo'⟩ := hostLaws_iff.mp laws'
  exact ⟨port', event', atn', sdo'⟩

end Sys2Proof.Machine
end

section
/-! O58: the laws of the overflow latch, of the FILL flag and of the offers outstanding (R111, R135, R138). They read
each host's part of the WS, the offers outstanding and the states of the ports. -/

namespace Sys2Proof.Machine

open Sys2Proof.Safety

/-- An answer leaves the states of the ports. -/
theorem answer_state (h : HostId) (res : Result) (p : List Byte) (s : State) (g : HostId) :
    ((answer h res p s).port g).state = (s.port g).state := by
  unfold answer
  split
  · by_cases own : g = h
    · subst own; rw [State.onPort_port_self]
    · rw [State.onPort_port_ne _ _ own]
  · rfl

/-! ### The laws offer by offer -/

/-- The offer is outstanding at the WS. -/
def Offered (s : State) (o : Offer) : Prop := ∃ os, .offers os ∈ s.ws.fromFre ∧ o ∈ os

/-- The latch law and the fill law, of what the WS holds for one host. -/
structure StoreFlags (c : WsHost) : Prop where
  latch : ¬(c.latch = true ∧ c.resume = true)
  fill  : ∀ r ∈ c.rxq, r.fill = true → r.self = true

/-- The laws of the receive flags, of a state. -/
structure ReceiveLaw (s : State) : Prop where
  flags : ∀ h, StoreFlags (s.store h)
  fill  : ∀ o, Offered s o → o.fill = true → o.self = true
  open_ : ∀ o, Offered s o → (s.port o.host).state ≠ .detaching

theorem offersTo_iff {h : HostId} {s : State} :
    s.ws.fromFre.any (offersTo h) = true ↔ ∃ o, Offered s o ∧ o.host = h := by
  rw [List.any_eq_true]
  constructor
  · rintro ⟨w, m, some⟩
    cases w with
    | offers os =>
      obtain ⟨o, mo, host⟩ := List.any_eq_true.mp some
      exact ⟨o, ⟨os, m, mo⟩, of_decide_eq_true host⟩
    | boundary => cases some
    | loss hs => cases some
  · rintro ⟨o, ⟨os, m, mo⟩, host⟩
    exact ⟨_, m, List.any_eq_true.mpr ⟨o, mo, decide_eq_true host⟩⟩

theorem receiveLaw_iff {s : State} : ReceiveLaw s ↔ LatchLaw s ∧ FillLaw s ∧ OfferLaw s := by
  constructor
  · intro law
    refine ⟨fun h => (law.flags h).latch, ⟨fun h => (law.flags h).fill, ?_⟩, fun h detaching => ?_⟩
    · rintro w m os rfl o mo
      exact law.fill o ⟨os, m, mo⟩
    · rw [← Bool.not_eq_true, offersTo_iff]
      rintro ⟨o, offered, rfl⟩
      exact law.open_ o offered detaching
  · rintro ⟨latch, ⟨records, offers⟩, none⟩
    refine ⟨fun h => ⟨latch h, records h⟩, ?_, ?_⟩
    · rintro o ⟨os, m, mo⟩
      exact offers _ m os rfl o mo
    · intro o offered detaching
      have some := offersTo_iff.mpr ⟨o, offered, rfl⟩
      rw [none o.host detaching] at some
      cases some

/-! ### Steps that bring no new offer -/

/-- Each host's part keeps its flag laws, and every offer outstanding was so before. -/
structure Receives (s u : State) : Prop where
  flags   : ∀ g, StoreFlags (s.store g) → StoreFlags (u.store g)
  offered : ∀ o, Offered u o → Offered s o

theorem Receives.trans {s t u : State} (a : Receives s t) (b : Receives t u) : Receives s u :=
  ⟨fun g flags => b.flags g (a.flags g flags), fun o offered => a.offered o (b.offered o offered)⟩

theorem Receives.of_same {s u : State} (hosts : u.ws.hosts = s.ws.hosts) (fromFre : u.ws.fromFre = s.ws.fromFre) :
    Receives s u :=
  ⟨fun g flags => by rwa [State.store, hosts], fun o offered => by rwa [Offered, fromFre] at offered⟩

theorem Receives.of_ws {s u : State} (same : u.ws = s.ws) : Receives s u :=
  .of_same (congrArg _ same) (congrArg _ same)

theorem Receives.refl (s : State) : Receives s s := .of_ws rfl

/-- The state before differs in neither the hosts' parts nor the FRE's work. -/
theorem Receives.after {s t u : State} (b : Receives t u) (hosts : t.ws.hosts = s.ws.hosts)
    (fromFre : t.ws.fromFre = s.ws.fromFre) : Receives s u := (Receives.of_same hosts fromFre).trans b

/-- The state after differs in neither the hosts' parts nor the FRE's work. -/
theorem Receives.before {s t u : State} (a : Receives s t) (hosts : u.ws.hosts = t.ws.hosts)
    (fromFre : u.ws.fromFre = t.ws.fromFre) : Receives s u := a.trans (.of_same hosts fromFre)

theorem ReceiveLaw.step {s u : State} (law : ReceiveLaw s) (receives : Receives s u)
    (detaching : ∀ g, (u.port g).state = .detaching → (s.port g).state = .detaching) : ReceiveLaw u where
  flags h := receives.flags h (law.flags h)
  fill o offered := law.fill o (receives.offered o offered)
  open_ o offered now := law.open_ o (receives.offered o offered) (detaching _ now)

/-- The host's part changed in a way that keeps its flag laws. -/
theorem Receives.onStore (s : State) (h : HostId) {f : WsHost → WsHost}
    (keeps : ∀ c, StoreFlags c → StoreFlags (f c)) : Receives s (s.onStore h f) := by
  refine ⟨fun g flags => ?_, fun o offered => offered⟩
  by_cases own : g = h
  · subst own; rw [State.onStore_store_self]; exact keeps _ flags
  · rwa [State.onStore_store_ne s f own]

theorem Receives.onStores (s : State) {f : HostId → WsHost → WsHost}
    (keeps : ∀ g c, StoreFlags c → StoreFlags (f g c)) : Receives s (s.onStores f) :=
  ⟨fun g flags => by rw [State.onStores_store]; exact keeps g _ flags, fun o offered => offered⟩

theorem StoreFlags.congr {c d : WsHost} (flags : StoreFlags c) (latch : d.latch = c.latch)
    (resume : d.resume = c.resume) (rxq : d.rxq = c.rxq) : StoreFlags d :=
  ⟨by rw [latch, resume]; exact flags.latch, by rw [rxq]; exact flags.fill⟩

theorem receives_giveBack (h : HostId) (n : Nat) (s : State) : Receives s (giveBack h n s) :=
  (Receives.onStore s h (f := fun c => { c with held := c.held - n }) fun _ flags =>
    flags.congr rfl rfl rfl).before rfl rfl

theorem receives_charge (h : HostId) (n : Nat) (s : State) : Receives s (charge h n s) :=
  (Receives.onStore s h (f := fun c => { c with held := c.held + n }) fun _ flags =>
    flags.congr rfl rfl rfl).before rfl rfl

theorem Receives.answer {s v : State} {h : HostId} {res : Result} {p : List Byte} (receives : Receives s v) :
    Receives s (answer h res p v) :=
  receives.trans (.of_ws (answer_ws ..))

/-- A notice handed to the WS is no offer. -/
theorem receives_toWs (w : FreWork) (s : State) (notice : ∀ os, w ≠ .offers os) : Receives s (toWs w s) := by
  refine ⟨fun g flags => flags, ?_⟩
  rintro o ⟨os, m, mo⟩
  rw [toWs_fromFre, List.mem_append, List.mem_singleton] at m
  exact ⟨os, m.resolve_right fun e => notice os e.symm, mo⟩

/-- Work left over is work there was. -/
theorem receives_leaveWork {s : State} {left : List FreWork}
    (less : ∀ os, .offers os ∈ left → ∃ os', .offers os' ∈ s.ws.fromFre ∧ os ⊆ os') :
    Receives s (leaveWork left s) := by
  refine ⟨fun g flags => flags, ?_⟩
  rintro o ⟨os, m, mo⟩
  obtain ⟨os', m', sub⟩ := less os m
  exact ⟨os', m', sub mo⟩

/-! ### The RSC's work -/

theorem receives_foldl {act : State → Nat → State} (each : ∀ t x, Receives t (act t x)) (slots : List Nat)
    (s : State) : Receives s (slots.foldl act s) :=
  List.foldlRecOn (motive := fun t => Receives s t) slots act (.refl s)
    fun t soFar x _ => soFar.trans (each t x)

theorem receives_createRecord (h : HostId) (session : Byte) (a : ClaimArgs) (s : State) (slot : Nat) :
    Receives s (createRecord h session a s slot) := by
  unfold createRecord
  dsimp only
  split <;> exact .of_same rfl rfl

theorem receives_releaseSlot (h : HostId) (role : Role) (mode : ReleaseMode) (s : State) (slot : Nat) :
    Receives s (releaseSlot h role mode s slot) := by
  unfold releaseSlot
  split
  · split <;> exact .of_same rfl rfl
  · exact .refl s

section
variable {s u : State} {h : HostId}

theorem claimStep_receives (e : claimStep s = some u) : Receives s u := by
  obtain ⟨h, r, -, -, rfl⟩ := claimStep_iff.mp e
  have pointed : Receives s (pointAt h s) := .of_ws rfl
  unfold claimFor
  split
  · exact pointed.answer
  · split
    · exact pointed.answer
    · exact .answer (pointed.trans (receives_foldl (receives_createRecord h _ _) _ _))

theorem releaseStep_receives (e : releaseStep s = some u) : Receives s u := by
  obtain ⟨h, r, -, -, rfl⟩ := releaseStep_iff.mp e
  have pointed : Receives s (pointAt h s) := .of_ws rfl
  unfold releaseFor
  split
  · exact pointed.answer
  · split
    · exact pointed.answer
    · exact .answer (pointed.trans (receives_foldl (receives_releaseSlot h _ _) _ _))

theorem rscSessionEndStep_receives (e : rscSessionEndStep h s = some u) : Receives s u := by
  unfold rscSessionEndStep at e
  split at e
  · cases e; exact .of_same (by simp [askWs]) (by simp)
  · cases e

theorem boundaryStep_receives (e : boundaryStep s = some u) : Receives s u := by
  unfold boundaryStep at e
  split at e
  · cases e
  · split at e
    · cases e; exact .of_same rfl rfl
    · cases e; exact .of_same rfl rfl
    · cases e

theorem expireNext_receives {k : Word} {ls : List ListenerHost} {first rest : List ClaimRec}
    (e : expireNext k ls first rest s = some u) : Receives s u := by
  unfold expireNext at e
  split at e
  · cases e; exact .of_same rfl rfl
  · cases e

theorem leaseExpiryStep_receives (e : leaseExpiryStep s = some u) : Receives s u := by
  unfold leaseExpiryStep at e
  split at e
  · cases e
  · split at e
    · exact expireNext_receives e
    · dsimp only at e
      exact (expireNext_receives e).after rfl rfl
    · cases e

/-! ### The FRE's work -/

theorem receives_loadHead (id : Nat) (h : HostId) (s : State) : Receives s (loadHead id h s) := by
  unfold loadHead
  split
  · exact .refl s
  · exact (receives_giveBack ..).after rfl rfl

theorem receives_putSlot (p : SlotPlan) (s : State) : Receives s (putSlot p s) := by
  obtain ⟨same, -⟩ | ⟨id, owner, -, loaded⟩ := putSlot_ws p s
  · exact .of_ws same
  · exact (receives_loadHead id owner s).trans (.of_ws loaded)

theorem slotStartStep_receives (e : slotStartStep s = some u) : Receives s u := by
  unfold slotStartStep at e
  split at e
  · split at e
    · dsimp only at e
      have put (k : Word) (p : SlotPlan) : Receives s (applyTraffic k p.traffic (putSlot p s)) :=
        (receives_putSlot p s).trans (.of_ws (applyTraffic_ws ..))
      split at e
      · cases e; exact put ..
      · cases e; exact (put ..).trans (.of_ws rfl)
    · cases e
  · cases e

theorem awaitingStep_receives (e : awaitingStep s = some u) : Receives s u := by
  unfold awaitingStep at e
  split at e
  · dsimp only at e
    split at e
    · have put (p : SlotPlan) (b : Option Awaiting) :
          Receives s (putSlot p (s.onRsc fun c => { c with awaiting := b })) :=
        (receives_putSlot ..).after rfl rfl
      cases e
      exact (put ..).before rfl rfl
    · cases e; exact .of_ws rfl
  · cases e

theorem receives_openFrame (k : Word) (s : State) : Receives s (openFrame k s) :=
  (receives_toWs .boundary _ (by nofun)).after rfl rfl

theorem leadInEndStep_receives (e : leadInEndStep s = some u) : Receives s u := by
  unfold leadInEndStep at e
  split at e
  · cases e; exact (receives_openFrame ..).before rfl rfl
  · cases e

theorem frameBoundaryStep_receives (e : frameBoundaryStep s = some u) : Receives s u := by
  unfold frameBoundaryStep at e
  dsimp only at e
  split at e
  · split at e <;> (cases e; exact (receives_openFrame ..).before rfl rfl)
  · cases e

theorem receives_loseLock (acq : Option Nat) (s : State) : Receives s (loseLock acq s) := by
  have lost : Receives s (toWs (.loss (lossHosts s)) (s.onRsc fun c => { c with awaiting := none })) :=
    (receives_toWs _ _ (by nofun)).after rfl rfl
  unfold loseLock
  dsimp only
  split <;> exact lost.before rfl rfl

theorem receives_confirmStep (k : Word) (r : BoundaryResult) (rxd : Bool) (s : State) :
    Receives s (confirmStep k r rxd s) := by
  have opened : Receives s (openFrame k (enact r (s.onRsc fun c => { c with awaiting := none }))) :=
    (receives_openFrame ..).after rfl rfl
  unfold confirmStep
  dsimp only
  split
  · exact opened.before rfl rfl
  · exact opened.trans (.of_ws (applyTraffic_ws ..))

theorem frameSyncStep_receives {rxd : Bool} (e : frameSyncStep rxd s = some u) : Receives s u := by
  unfold frameSyncStep at e
  split at e
  · split at e
    · cases e
    · split at e
      · cases e; exact (receives_openFrame ..).before rfl rfl
      · cases e; exact .of_ws rfl
    all_goals
      split at e
      · split at e
        · cases e; exact receives_confirmStep ..
        · cases e
        · cases e; exact (receives_loseLock ..).before rfl rfl
      · cases e
  · cases e

theorem missingSyncStep_receives {hfsync : Bool} (e : missingSyncStep hfsync s = some u) : Receives s u := by
  unfold missingSyncStep at e
  split at e
  · split at e
    · cases e; exact (receives_loseLock ..).before rfl rfl
    · cases e
  · cases e
  · cases e

/-! ### The WS's own steps -/

theorem setQuotaStep_receives (e : setQuotaStep h s = some u) : Receives s u := by
  unfold setQuotaStep at e
  split at e
  · rename_i taken
    have took : Receives s _ := .of_ws (takeFair_ws taken)
    split at e
    · cases e; exact took.answer
    · split at e
      · cases e; exact took.answer
      · split at e
        · cases e; exact took.answer
        · cases e
          exact .answer (took.trans (.onStore _ h fun _ flags => flags.congr rfl rfl rfl))
  · cases e

theorem receives_appendEntries (id : Nat) (h : HostId) (es : List TxEntry) (s : State) :
    Receives s (appendEntries id h es s) := by
  unfold appendEntries
  split
  · exact (receives_charge ..).after rfl rfl
  · exact .refl s

theorem receives_writeTo (h : HostId) (slot : Nat) (es : List TxEntry) (s : State) :
    Receives s (writeTo h slot es s) := by
  unfold writeTo
  split
  · split <;> exact .answer (Receives.refl s)
  · split
    · exact .answer (Receives.refl s)
    · dsimp only
      split
      · exact .answer (Receives.refl s)
      · split
        · exact .answer (Receives.refl s)
        · exact .answer (.after (receives_appendEntries ..) rfl rfl)

theorem writeWordsStep_receives (e : writeWordsStep h s = some u) : Receives s u := by
  unfold writeWordsStep at e
  split at e
  · split at e
    · rename_i taken
      have took : Receives s _ := .of_ws (takeFair_ws taken)
      split at e
      · cases e; exact took.answer
      · cases e; exact took.trans (receives_writeTo ..)
    · cases e
  · cases e

theorem readWordsStep_receives (e : readWordsStep h s = some u) : Receives s u := by
  unfold readWordsStep at e
  split at e
  · rename_i taken
    obtain ⟨-, -, rfl⟩ := takeFair_some.mp taken
    have took : Receives s (markServed Kind.readWords.owner h s) := .of_ws rfl
    split at e
    · cases e; exact took.answer
    · rename_i m _
      cases e
      refine .answer (.trans (took.trans (u := State.onStore _ h fun c => { c with rxq := (s.store h).rxq.drop m })
        ⟨fun g flags => ?_, fun o offered => offered⟩) (receives_giveBack ..))
      by_cases own : g = h
      · subst own
        rw [State.onStore_store_self]
        exact ⟨flags.latch, fun r m => flags.fill r (List.mem_of_mem_drop m)⟩
      · rwa [State.onStore_store_ne _ _ own]
  · cases e

theorem clearOverflowStep_receives (e : clearOverflowStep h s = some u) : Receives s u := by
  unfold clearOverflowStep at e
  split at e
  · rename_i taken
    have took : Receives s _ := .of_ws (takeFair_ws taken)
    dsimp only at e
    split at e
    · cases e
      exact .answer (took.trans (.onStore _ h fun _ flags => ⟨by simp, flags.fill⟩))
    · cases e; exact took.answer
  · cases e

/-- R147: a host passed over in the loss notices leaves the offers. -/
theorem receives_passOver (h : HostId) (s : State) : Receives s (passOver h s) := by
  refine ⟨fun g flags => flags, ?_⟩
  rintro o ⟨os, m, mo⟩
  obtain ⟨w, mw, e⟩ := List.mem_map.mp m
  cases w with
  | offers os' =>
    cases e
    exact ⟨os, mw, mo⟩
  | boundary => cases e
  | loss hs => cases e

theorem wsSessionEndStep_receives (e : wsSessionEndStep h s = some u) : Receives s u := by
  unfold wsSessionEndStep at e
  split at e
  · cases e
    have flushed : Receives s ((passOver h s).onQueues (flushOwner h)) :=
      (receives_passOver h s).trans (.of_same rfl rfl)
    have cleared := flushed.trans (.onStore _ h (f := fun c =>
      { c with rxq := [], latch := false, resume := false, gap := false }) fun _ _ => ⟨by simp, by simp⟩)
    exact (cleared.trans (receives_giveBack ..)).trans (.of_ws (report_ws ..))
  · cases e

/-- R135, R138: the record of an offer has the offer's flags, and the latch is set only where nothing is resuming. -/
theorem flags_takeOffer {o : Offer} (fill : o.fill = true → o.self = true) (g : HostId)
    (flags : StoreFlags (s.store g)) : StoreFlags ((takeOffer o s).store g) := by
  by_cases own : g = o.host
  · subst own
    by_cases latched : (s.store o.host).latch = true
    · rw [takeOffer_of_latch latched, State.onStore_store_self]
      exact flags.congr rfl rfl rfl
    by_cases resuming : (s.store o.host).resume = true
    · rwa [takeOffer_of_resume latched resuming]
    by_cases full : (s.store o.host).quota ≤ (s.store o.host).held
    · rw [takeOffer_of_full latched resuming full, eventFromWs_store, State.onStore_store_self]
      exact ⟨fun both => resuming both.2, flags.fill⟩
    · rw [takeOffer_of_room latched resuming (Nat.not_le.mp full), charge_store_self, State.onStore_store_self]
      refine ⟨flags.latch, fun r m => ?_⟩
      rcases List.mem_append.mp m with old | new
      · exact flags.fill r old
      · rw [List.mem_singleton] at new
        subst new
        exact fill
  · rwa [(takeOffer_keptBeside o s).others g own]

theorem rxOfferStep_receives (law : ReceiveLaw s) (e : rxOfferStep h s = some u) : Receives s u := by
  unfold rxOfferStep at e
  split at e
  · rename_i os rest work
    split at e
    · rename_i o found
      cases e
      have mem := List.mem_of_find?_eq_some found
      have offered : Offered s o := ⟨os, by simp [work], mem⟩
      have left : Receives s (leaveWork (dropOffer o os rest) s) := by
        refine receives_leaveWork fun os' m => ?_
        unfold dropOffer at m
        rw [work]
        split at m
        · exact ⟨os', List.mem_cons_of_mem _ m, fun _ => id⟩
        · rcases List.mem_cons.mp m with e | m
          · cases e
            exact ⟨os, List.mem_cons_self, List.erase_subset⟩
          · exact ⟨os', List.mem_cons_of_mem _ m, fun _ => id⟩
      have taken := takeOffer_keptBeside o (leaveWork (dropOffer o os rest) s)
      refine left.trans ⟨fun g => flags_takeOffer (law.fill o offered) g, fun p offered => ?_⟩
      rw [Offered, ← taken.fromFre]
      exact offered
    · cases e
  · cases e

theorem lossNoticeStep_receives (e : lossNoticeStep s = some u) : Receives s u := by
  unfold lossNoticeStep at e
  split at e
  · rename_i hs rest work
    cases e
    have left : Receives s (leaveWork rest s) :=
      receives_leaveWork fun os m => ⟨os, by simp [work, m], fun _ => id⟩
    refine left.trans (.onStores _ fun g c flags => ?_)
    split
    · exact flags.congr rfl rfl rfl
    · exact flags
  · cases e

theorem wsBoundaryStep_receives (e : wsBoundaryStep s = some u) : Receives s u := by
  unfold wsBoundaryStep at e
  split at e
  · rename_i rest work
    cases e
    have left : Receives s (leaveWork rest s) :=
      receives_leaveWork fun os m => ⟨os, by simp [work, m], fun _ => id⟩
    refine left.trans (.onStores _ fun g c flags => ?_)
    split
    · exact ⟨by simp, flags.fill⟩
    · exact flags
  · cases e

theorem receives_flushQueue (id : Nat) (s : State) : Receives s (flushQueue id s) := by
  unfold flushQueue
  split
  · exact (receives_giveBack ..).after rfl rfl
  · exact .refl s

theorem queueFlushStep_receives {id : Nat} (e : queueFlushStep id s = some u) : Receives s u := by
  unfold queueFlushStep at e
  split at e
  · cases e; exact (receives_flushQueue ..).after rfl rfl
  · cases e

theorem queueEndingStep_receives {id : Nat} (e : queueEndingStep id s = some u) : Receives s u := by
  unfold queueEndingStep at e
  split at e
  · cases e
    have flushed : Receives s (flushQueue id (dropAsk (.ending id) s)) := .after (receives_flushQueue ..) rfl rfl
    exact flushed.before rfl rfl
  · cases e

/-! ### New offers (R133, R137) -/

/-- The word of a slot has FILL only with SELF (R134, R135). -/
theorem slotWord_fill {f : Fre} {sample : Word} (fill : (slotWord f sample).2.2 = true) :
    (slotWord f sample).2.1 = true := by
  unfold slotWord at fill ⊢
  split <;> simp_all

/-- R137: no host of a DETACHING port is offered the word. -/
theorem offeredHosts_open {slot : Nat} {g : HostId} (m : g ∈ offeredHosts s slot) :
    (s.port g).state ≠ .detaching := by
  obtain ⟨r, mr, rfl⟩ := List.mem_map.mp m
  have shown := (List.mem_filter.mp mr).2
  simp only [excluded, Bool.not_eq_true', Bool.or_eq_false_iff, decide_eq_false_iff_not] at shown
  exact shown.2

/-- The offers outstanding once those of a slot end have been handed over. -/
theorem offered_offerAll {os : List Offer} {o : Offer} (offered : Offered (offerAll os s) o) :
    Offered s o ∨ o ∈ os := by
  unfold offerAll at offered
  split at offered
  · exact .inl offered
  · obtain ⟨os', m, mo⟩ := offered
    rw [toWs_fromFre, List.mem_append, List.mem_singleton] at m
    rcases m with old | same
    · exact .inl ⟨os', old, mo⟩
    · cases same; exact .inr mo

theorem offerAll_store (os : List Offer) (s : State) : (offerAll os s).store = s.store := by
  unfold offerAll
  split <;> rfl

/-- The offers of a slot end obey the laws, and so does the state they are handed over in. -/
theorem ReceiveLaw.offerAll {w : Word × Bool × Bool} {slot : Nat} (law : ReceiveLaw s)
    (fill : w.2.2 = true → w.2.1 = true) : ReceiveLaw (offerAll (offersOf s slot w) s) := by
  have new {o : Offer} (m : o ∈ offersOf s slot w) :
      (o.fill = true → o.self = true) ∧ (s.port o.host).state ≠ .detaching := by
    obtain ⟨g, mg, rfl⟩ := List.mem_map.mp m
    exact ⟨fill, offeredHosts_open mg⟩
  refine ⟨fun h => by rw [offerAll_store]; exact law.flags h, fun o offered => ?_, fun o offered => ?_⟩
  · rcases offered_offerAll offered with old | m
    · exact law.fill o old
    · exact (new m).1
  · rw [State.port, (offerAll_frame ..).1]
    rcases offered_offerAll offered with old | m
    · exact law.open_ o old
    · exact (new m).2

theorem slotEndStep_receiveLaw {hfsync rxd : Bool} (law : ReceiveLaw s) (e : slotEndStep hfsync rxd s = some u) :
    ReceiveLaw u := by
  unfold slotEndStep at e
  split at e
  · cases e
    exact { law.offerAll slotWord_fill with }
  · cases e

/-! ### Steps that move a session (R168 to R170) -/

/-- R111: the port becomes DETACHING only with no offer to its host outstanding. -/
theorem detachStep_receiveLaw (law : ReceiveLaw s) (e : detachStep h s = some u) : ReceiveLaw u := by
  have receives : Receives s u := .of_ws (detachStep_ws e)
  have detaching (v : State) (same : ∀ g, (v.port g).state = (s.port g).state) (g : HostId)
      (now : (v.port g).state = .detaching) : (s.port g).state = .detaching := same g ▸ now
  unfold detachStep at e
  split at e
  · split at e
    · cases e
    · cases e; exact law.step receives (detaching _ fun g => answer_state ..)
    · split at e
      · cases e; exact law.step receives (detaching _ fun g => answer_state ..)
      · split at e
        · cases e
        · rename_i none
          cases e
          refine ⟨law.flags, law.fill, fun o offered => ?_⟩
          have other : o.host ≠ h := fun own => none (offersTo_iff.mpr ⟨o, offered, own⟩)
          rw [State.onPort_port_ne _ _ other]
          exact law.open_ o offered
  · cases e

theorem attachStep_detaching {g : HostId} (e : attachStep h s = some u)
    (now : (u.port g).state = .detaching) : (s.port g).state = .detaching := by
  unfold attachStep at e
  split at e
  · split at e
    · cases e; rwa [answer_state] at now
    · cases e
      rw [answer_state] at now
      by_cases own : g = h
      · subst own; rw [State.onPort_port_self] at now; cases now
      · rwa [State.onPort_port_ne _ _ own] at now
  · cases e

theorem evuSessionEndStep_detaching {g : HostId} (e : evuSessionEndStep h s = some u)
    (now : (u.port g).state = .detaching) : (s.port g).state = .detaching := by
  unfold evuSessionEndStep at e
  split at e
  · cases e
    by_cases own : g = h
    · subst own
      rw [report_port_self, reportedPort_state] at now
      split at now
      · cases now
      · exact now
    · rwa [report_port_ne _ _ _ own] at now
  · cases e

/-- The end of a transaction leaves the session. -/
theorem endTransaction_state (status : Byte) (stream : List Byte) (bits : Nat) (g : HostId) :
    ((endTransaction h status stream bits s).port g).state = (s.port g).state := by
  unfold endTransaction
  by_cases own : g = h
  · subst own
    rw [State.onPort_port_self]
    unfold clearShown
    split <;> rfl
  · rw [State.onPort_port_ne _ _ own]

theorem endSelect_state (g : HostId) : ((endSelect h s).port g).state = (s.port g).state := by
  unfold endSelect
  by_cases own : g = h
  · subst own; rw [State.onPort_port_self]
  · rw [State.onPort_port_ne _ _ own]

theorem receiveFrame_state (bytes : List Byte) (extraBits : Nat) (p : Port) :
    (receiveFrame bytes extraBits p).state = p.state := by
  unfold receiveFrame judgeFrame
  split
  · split
    · rfl
    · split
      · rfl
      · split <;> rfl
  · rfl

theorem openingStep_detaching {g : HostId} (e : openingStep h s = some u)
    (now : (u.port g).state = .detaching) : (s.port g).state = .detaching := by
  unfold openingStep at e
  split at e
  · cases e
  · cases e
    by_cases own : g = h
    · subst own; rwa [State.onPort_port_self] at now
    · rwa [State.onPort_port_ne _ _ own] at now

theorem statusStep_detaching {bits : Nat} {g : HostId} (e : statusStep h bits s = some u)
    (now : (u.port g).state = .detaching) : (s.port g).state = .detaching := by
  unfold statusStep at e
  split at e
  · split at e
    · cases e; rwa [endTransaction_state] at now
    · cases e; rwa [endSelect_state] at now
  · cases e

theorem collectStep_detaching {bits : Nat} {g : HostId} (e : collectStep h bits s = some u)
    (now : (u.port g).state = .detaching) : (s.port g).state = .detaching := by
  unfold collectStep at e
  split at e
  · split at e
    · split at e
      · split at e
        · dsimp only at e
          split at e
          · cases e
            by_cases own : g = h
            · subst own; rwa [State.onPort_port_self, endTransaction_state] at now
            · rwa [State.onPort_port_ne _ _ own, endTransaction_state] at now
          · cases e; rwa [endTransaction_state] at now
        · cases e; rwa [endTransaction_state] at now
      · cases e; rwa [endTransaction_state] at now
    · cases e; rwa [endSelect_state] at now
  · cases e

theorem requestStep_detaching {bytes : List Byte} {extraBits : Nat} {g : HostId}
    (e : requestStep h bytes extraBits s = some u) (now : (u.port g).state = .detaching) :
    (s.port g).state = .detaching := by
  unfold requestStep at e
  dsimp only at e
  split at e
  · exact statusStep_detaching e now
  · split at e
    · exact statusStep_detaching e now
    · split at e
      · exact collectStep_detaching e now
      · split at e
        · split at e
          · cases e
            by_cases own : g = h
            · subst own; rwa [State.onPort_port_self, receiveFrame_state, endTransaction_state] at now
            · rwa [State.onPort_port_ne _ _ own, endTransaction_state] at now
          · cases e; rwa [endSelect_state] at now
        · cases e

theorem setAttentionStep_detaching {g : HostId} (e : setAttentionStep h s = some u)
    (now : (u.port g).state = .detaching) : (s.port g).state = .detaching := by
  unfold setAttentionStep at e
  split at e
  · split at e
    · cases e; rwa [answer_state] at now
    · split at e
      · cases e
        rw [answer_state] at now
        by_cases own : g = h
        · subst own; rwa [State.onPort_port_self] at now
        · rwa [State.onPort_port_ne _ _ own] at now
      · cases e; rwa [answer_state] at now
  · cases e

end

/-! ### Every command -/

theorem receiveLaw_resetPart (s : State) : ReceiveLaw (resetPart s) := by
  have store (g : HostId) : (resetPart s).store g = WsHost.reset := Quad.get_all ..
  refine ⟨fun g => ?_, ?_, ?_⟩
  · rw [store]; exact ⟨by simp [WsHost.reset], by simp [WsHost.reset]⟩
  all_goals
    rintro o ⟨os, m, -⟩
    exact nomatch (m : FreWork.offers os ∈ [])

section
variable {s t : State} {o : Option State} (law : ReceiveLaw s) (ran : settle s o = .next t)

include law ran

theorem settle_receiveLaw (keeps : ∀ {u}, o = some u → ReceiveLaw u) : ReceiveLaw t := by
  obtain ⟨u, stepped, rfl⟩ | ⟨-, rfl⟩ := settle_next ran
  · have kept := keeps stepped
    exact ⟨kept.flags, kept.fill, fun o offered => by rw [State.refreshAtn_port_state]; exact kept.open_ o offered⟩
  · exact law

theorem settle_receiveLaw_of_receives (receives : ∀ {u}, o = some u → Receives s u)
    (detaching : ∀ {u g}, o = some u → (u.port g).state = .detaching → (s.port g).state = .detaching) :
    ReceiveLaw t :=
  settle_receiveLaw law ran fun stepped => law.step (receives stepped) fun _ => detaching stepped

theorem settle_receiveLaw_of_moves (receives : ∀ {u}, o = some u → Receives s u)
    (moves : ∀ {u}, o = some u → OwnerMoves s u) : ReceiveLaw t :=
  settle_receiveLaw_of_receives law ran receives fun stepped => (moves stepped).detaching

theorem settle_receiveLaw_of_ws (same : ∀ {u}, o = some u → u.ws = s.ws)
    (moves : ∀ {u}, o = some u → OwnerMoves s u) : ReceiveLaw t :=
  settle_receiveLaw_of_moves law ran (fun stepped => .of_ws (same stepped)) moves

end

theorem exec_receiveLaw {s t : State} (c : Instr) (law : ReceiveLaw s) (ran : exec c s = .next t) :
    ReceiveLaw t := by
  cases c with
  | status => exact settle_receiveLaw_of_receives law ran (fun e => .of_ws (statusStep_ws e)) statusStep_detaching
  | collect => exact settle_receiveLaw_of_receives law ran (fun e => .of_ws (collectStep_ws e)) collectStep_detaching
  | requestFrame => exact settle_receiveLaw_of_receives law ran (fun e => .of_ws (requestStep_ws e)) requestStep_detaching
  | setAttention => exact settle_receiveLaw_of_receives law ran (fun e => .of_ws (setAttentionStep_ws e)) setAttentionStep_detaching
  | transactionOpening => exact settle_receiveLaw_of_receives law ran (fun e => .of_ws (openingStep_ws e)) openingStep_detaching
  | attach => exact settle_receiveLaw_of_receives law ran (fun e => .of_ws (attachStep_ws e)) attachStep_detaching
  | detach => exact settle_receiveLaw law ran (detachStep_receiveLaw law)
  | evuSessionEnd =>
    exact settle_receiveLaw_of_receives law ran (fun e => .of_ws (evuSessionEndStep_ws e)) evuSessionEndStep_detaching
  | renew => exact settle_receiveLaw_of_ws law ran renewStep_ws fun e => (renewStep_frame e).moves
  | querySlot => exact settle_receiveLaw_of_ws law ran querySlotStep_ws fun e => (querySlotStep_frame e).moves
  | format => exact settle_receiveLaw_of_ws law ran formatStep_ws fun e => (formatStep_frame e).moves
  | run => exact settle_receiveLaw_of_ws law ran runStep_ws fun e => (runStep_frame e).moves
  | halt => exact settle_receiveLaw_of_ws law ran haltStep_ws fun e => (haltStep_frame e).moves
  | queryEngine => exact settle_receiveLaw_of_ws law ran queryEngineStep_ws fun e => (queryEngineStep_frame e).moves
  | queryHost => exact settle_receiveLaw_of_ws law ran queryHostStep_ws fun e => (queryHostStep_frame e).moves
  | freSessionEnd => exact settle_receiveLaw_of_ws law ran freSessionEndStep_ws fun e => (freSessionEndStep_frame e).moves
  | expectedInstant => exact settle_receiveLaw_of_ws law ran expectedInstantStep_ws fun e => (expectedInstantStep_frame e).moves
  | bitClock => exact settle_receiveLaw_of_ws law ran bitClockStep_ws fun e => (bitClockStep_frame e).moves
  | nextEvents => exact settle_receiveLaw_of_ws law ran nextEventsStep_ws fun e => (nextEventsStep_frame e).1
  | eventTaken => exact settle_receiveLaw_of_ws law ran eventTakenStep_ws fun e => (eventTakenStep_frame e).1
  | claim => exact settle_receiveLaw_of_moves law ran claimStep_receives fun e => (claimStep_frame e).moves
  | release => exact settle_receiveLaw_of_moves law ran releaseStep_receives fun e => (releaseStep_frame e).moves
  | rscSessionEnd => exact settle_receiveLaw_of_moves law ran rscSessionEndStep_receives fun e => (rscSessionEndStep_frame e).moves
  | boundaryProcedure => exact settle_receiveLaw_of_moves law ran boundaryStep_receives fun e => (boundaryStep_frame e).moves
  | leaseExpiry => exact settle_receiveLaw_of_moves law ran leaseExpiryStep_receives fun e => (leaseExpiryStep_frame e).moves
  | awaitingConfirmationNotice => exact settle_receiveLaw_of_moves law ran awaitingStep_receives fun e => (awaitingStep_frame e).moves
  | leadInEnd => exact settle_receiveLaw_of_moves law ran leadInEndStep_receives fun e => (leadInEndStep_frame e).moves
  | frameBoundary => exact settle_receiveLaw_of_moves law ran frameBoundaryStep_receives fun e => (frameBoundaryStep_frame e).moves
  | frameSync => exact settle_receiveLaw_of_moves law ran frameSyncStep_receives fun e => (frameSyncStep_frame e).moves
  | missingSync => exact settle_receiveLaw_of_moves law ran missingSyncStep_receives fun e => (missingSyncStep_frame e).moves
  | slotStart => exact settle_receiveLaw_of_moves law ran slotStartStep_receives fun e => (slotStartStep_frame e).moves
  | setQuota => exact settle_receiveLaw_of_moves law ran setQuotaStep_receives fun e => (setQuotaStep_frame e).moves
  | writeWords => exact settle_receiveLaw_of_moves law ran writeWordsStep_receives fun e => (writeWordsStep_frame e).moves
  | readWords => exact settle_receiveLaw_of_moves law ran readWordsStep_receives fun e => (readWordsStep_frame e).moves
  | clearOverflow => exact settle_receiveLaw_of_moves law ran clearOverflowStep_receives fun e => (clearOverflowStep_frame e).moves
  | wsSessionEnd => exact settle_receiveLaw_of_moves law ran wsSessionEndStep_receives fun e => (wsSessionEndStep_frame e).moves
  | lossNotice => exact settle_receiveLaw_of_moves law ran lossNoticeStep_receives fun e => (lossNoticeStep_frame e).moves
  | wsBoundaryNotice => exact settle_receiveLaw_of_moves law ran wsBoundaryStep_receives fun e => (wsBoundaryStep_frame e).moves
  | queueFlush => exact settle_receiveLaw_of_moves law ran queueFlushStep_receives fun e => (queueFlushStep_frame e).moves
  | queueEnding => exact settle_receiveLaw_of_moves law ran queueEndingStep_receives fun e => (queueEndingStep_frame e).moves
  | rxOffer => exact settle_receiveLaw_of_moves law ran (rxOfferStep_receives law) fun e => (rxOfferStep_frame e).moves
  | slotEnd => exact settle_receiveLaw law ran (slotEndStep_receiveLaw law)
  | partReset =>
    cases ran
    exact receiveLaw_resetPart s
  | refclkStop => exact nomatch ran

/-- Settles O58: every command keeps the laws, whichever stands at the front of the queue. -/
theorem receiveFlagLawsAreKept : Obligations.ReceiveFlagLawsAreKept := by
  intro s t latch fill offer stepped
  have law : ReceiveLaw s := receiveLaw_iff.mpr ⟨latch, fill, offer⟩
  refine receiveLaw_iff.mp ?_
  unfold step at stepped
  split at stepped
  · rename_i c rest _
    exact exec_receiveLaw (s := { s with pending := rest }) c ⟨law.flags, law.fill, law.open_⟩ stepped
  · cases stepped; exact law

end Sys2Proof.Machine
end

section
/-! The laws of a list of claim records (R3, R4, R13, R14) under the changes the RSC makes: records deleted, changed in
place, created, adopted. -/

namespace Sys2Proof.Machine

open Sys2Proof.Safety

/-! ### Records changed in place -/

/-- The record is the same one, of the same key. -/
structure SameKey (r q : ClaimRec) : Prop where
  id   : q.id = r.id
  host : q.host = r.host
  slot : q.slot = r.slot
  role : q.role = r.role

/-- The changed record takes no more of its slot and key than it did: it is in the forward view, and in force, only where
it was. -/
structure KeepsPlace (r q : ClaimRec) : Prop extends SameKey r q where
  forward : q.forward = true → r.forward = true
  inForce : inForce q = true → inForce r = true
  lease   : leaseOk r → leaseOk q

theorem SameKey.isTalk {r q : ClaimRec} (same : SameKey r q) : q.isTalk = r.isTalk := by
  rw [ClaimRec.isTalk, ClaimRec.isTalk, same.role]

theorem SameKey.hasKey {r q : ClaimRec} (same : SameKey r q) (h : HostId) (slot : Nat) (role : Role) :
    q.hasKey h slot role = r.hasKey h slot role := by
  rw [ClaimRec.hasKey, ClaimRec.hasKey, same.host, same.slot, same.role]

theorem KeepsPlace.refl (r : ClaimRec) : KeepsPlace r r := ⟨⟨rfl, rfl, rfl, rfl⟩, id, id, id⟩

/-- Records deleted and others changed in place: each record of the list left, in order, is one of the list before. -/
def Thinned (rs rs' : List ClaimRec) : Prop := List.SublistForall₂ (fun q r => KeepsPlace r q) rs' rs

theorem Thinned.refl (rs : List ClaimRec) : Thinned rs rs := by
  induction rs with
  | nil => exact .nil
  | cons r rs ih => exact .cons (.refl r) ih

theorem Thinned.of_sublist {rs rs' : List ClaimRec} (sub : rs'.Sublist rs) : Thinned rs rs' := by
  induction sub with
  | slnil => exact .nil
  | cons r _ ih => exact .cons_right ih
  | cons_cons r _ ih => exact .cons (.refl r) ih

theorem Thinned.map {rs : List ClaimRec} {f : ClaimRec → ClaimRec} (keeps : ∀ r ∈ rs, KeepsPlace r (f r)) :
    Thinned rs (rs.map f) := by
  induction rs with
  | nil => exact .nil
  | cons r rs ih => exact .cons (keeps r List.mem_cons_self) (ih fun q m => keeps q (List.mem_cons_of_mem r m))

theorem Thinned.append {a a' b b' : List ClaimRec} (l : Thinned a a') (r : Thinned b b') :
    Thinned (a ++ b) (a' ++ b') := by
  induction l with
  | nil =>
    rename_i l
    induction l with
    | nil => exact r
    | cons x l ih => exact .cons_right ih
  | cons keeps _ ih => exact .cons keeps ih
  | cons_right _ ih => exact .cons_right ih

/-- A count falls where every record counted after was counted before. -/
theorem Thinned.countP_le {rs rs' : List ClaimRec} (thin : Thinned rs rs') {p' p : ClaimRec → Bool}
    (less : ∀ r q, KeepsPlace r q → p' q = true → p r = true) : rs'.countP p' ≤ rs.countP p := by
  induction thin with
  | nil => exact Nat.zero_le _
  | @cons q r _ _ keeps _ ih =>
    rw [List.countP_cons, List.countP_cons]
    by_cases counted : p' q = true
    · simp only [counted, less r q keeps counted, if_true]; omega
    · simp only [counted]; simp only [Bool.false_eq_true, if_false]; omega
  | cons_right _ ih =>
    rw [List.countP_cons]
    omega

theorem Thinned.mem {rs rs' : List ClaimRec} (thin : Thinned rs rs') {q : ClaimRec} (m : q ∈ rs') :
    ∃ r ∈ rs, KeepsPlace r q := by
  induction thin with
  | nil => cases m
  | cons keeps _ ih =>
    rcases List.mem_cons.mp m with rfl | m
    · exact ⟨_, List.mem_cons_self, keeps⟩
    · obtain ⟨r, mr, k⟩ := ih m
      exact ⟨r, List.mem_cons_of_mem _ mr, k⟩
  | cons_right _ ih =>
    obtain ⟨r, mr, k⟩ := ih m
    exact ⟨r, List.mem_cons_of_mem _ mr, k⟩

theorem Thinned.ids {rs rs' : List ClaimRec} (thin : Thinned rs rs') :
    (rs'.map ClaimRec.id).Sublist (rs.map ClaimRec.id) := by
  induction thin with
  | nil => exact List.nil_sublist _
  | cons keeps _ ih => rw [List.map_cons, List.map_cons, keeps.id]; exact ih.cons_cons _
  | cons_right _ ih => exact ih.cons _

theorem recordsLaw_thinned {rs rs' : List ClaimRec} {slots nextId : Nat} (law : RecordsLaw rs slots nextId)
    (thin : Thinned rs rs') : RecordsLaw rs' slots nextId where
  talk slot := by
    obtain ⟨forward, force⟩ := law.talk slot
    refine ⟨(thin.countP_le fun r q keeps => ?_).trans forward, (thin.countP_le fun r q keeps => ?_).trans force⟩
    all_goals
      simp only [keeps.isTalk, keeps.slot, Bool.and_eq_true]
    · exact fun on => ⟨on.1, keeps.forward on.2⟩
    · exact fun on => ⟨on.1, keeps.inForce on.2⟩
  key h slot role := by
    obtain ⟨forward, force⟩ := law.key h slot role
    refine ⟨(thin.countP_le fun r q keeps => ?_).trans forward, (thin.countP_le fun r q keeps => ?_).trans force⟩
    all_goals
      simp only [keeps.hasKey, Bool.and_eq_true]
    · exact fun on => ⟨on.1, keeps.forward on.2⟩
    · exact fun on => ⟨on.1, keeps.inForce on.2⟩
  count h := (thin.countP_le fun r q keeps => by rw [keeps.host]; exact id).trans (law.count h)
  lease q m := by
    obtain ⟨r, mr, keeps⟩ := thin.mem m
    exact keeps.lease (law.lease r mr)
  slot q m := by
    obtain ⟨r, mr, keeps⟩ := thin.mem m
    rw [keeps.slot]; exact law.slot r mr
  unique := law.unique.sublist thin.ids
  below q m := by
    obtain ⟨r, mr, keeps⟩ := thin.mem m
    rw [keeps.id]; exact law.below r mr

/-- The record of an identity changed in place. -/
theorem Thinned.updateRec {rs : List ClaimRec} {id : Nat} {f : ClaimRec → ClaimRec}
    (keeps : ∀ r ∈ rs, r.id = id → KeepsPlace r (f r)) : Thinned rs (updateRec id f rs) :=
  .map fun r m => by
    split
    · exact keeps r m ‹_›
    · exact .refl r

theorem record_eq_of_id {rs : List ClaimRec} {slots nextId : Nat} (law : RecordsLaw rs slots nextId)
    {r q : ClaimRec} (mr : r ∈ rs) (mq : q ∈ rs) (same : r.id = q.id) : r = q :=
  List.inj_on_of_nodup_map law.unique mr mq same

/-! ### The changes -/

theorem leaseOk_iff {r : ClaimRec} :
    leaseOk r ↔ (r.remaining = none ∧ (r.lease = 0#16 ∨ r.state = .pendingAdd)) ∨
      ∃ n, r.remaining = some n ∧ r.lease ≠ 0#16 ∧ r.state ≠ .pendingAdd ∧ n.toNat ≤ r.lease.toNat := by
  unfold leaseOk
  cases r.remaining <;> simp

/-- R38: a renewal. -/
theorem keepsPlace_renewed (r : ClaimRec) : KeepsPlace r r.renewed := by
  unfold ClaimRec.renewed
  split
  · rename_i leased
    refine ⟨⟨rfl, rfl, rfl, rfl⟩, id, id, fun _ => ?_⟩
    exact leaseOk_iff.mpr (.inr ⟨r.lease, rfl, leased.2, by simp [leased.1], le_refl _⟩)
  · exact .refl r

/-- R5: a write to the traffic fields. -/
theorem keepsPlace_onTalk (f : TalkPart → TalkPart) (r : ClaimRec) : KeepsPlace r (r.onTalk f) := by
  unfold ClaimRec.onTalk
  split
  · rename_i t body
    exact ⟨⟨rfl, rfl, rfl, by simp [ClaimRec.role, body]⟩, id, id, id⟩
  · exact .refl r

theorem KeepsPlace.trans {r q x : ClaimRec} (a : KeepsPlace r q) (b : KeepsPlace q x) : KeepsPlace r x :=
  ⟨⟨b.id.trans a.id, b.host.trans a.host, b.slot.trans a.slot, b.role.trans a.role⟩,
    fun now => a.forward (b.forward now), fun now => a.inForce (b.inForce now), fun ok => b.lease (a.lease ok)⟩

/-- R121: an accepted write. -/
theorem keepsPlace_written (r : ClaimRec) : KeepsPlace r r.written := by
  unfold ClaimRec.written
  split
  · rename_i t body
    have cleared : KeepsPlace r { r with body := .talk { t with reported := false } } :=
      ⟨⟨rfl, rfl, rfl, by simp [ClaimRec.role, body]⟩, id, id, id⟩
    dsimp only
    split
    · exact cleared.trans (keepsPlace_renewed _)
    · exact cleared
  · exact .refl r

/-- R11, R34: a record in force turned to PENDING_RELEASE. -/
theorem keepsPlace_released {r : ClaimRec} (mode : ReleaseMode) (force : r.state ≠ .pendingAdd) :
    KeepsPlace r { r with state := .pendingRelease mode } := by
  refine ⟨⟨rfl, rfl, rfl, rfl⟩, fun forward => Bool.noConfusion forward, fun _ => decide_eq_true force, fun ok => ?_⟩
  rcases leaseOk_iff.mp ok with ⟨none, lease | add⟩ | ⟨n, some, lease, -, le⟩
  · exact leaseOk_iff.mpr (.inl ⟨none, .inl lease⟩)
  · exact absurd add force
  · exact leaseOk_iff.mpr (.inr ⟨n, some, lease, nofun, le⟩)

/-- R49: a lease counted down that has not run out. -/
theorem keepsPlace_countedDown {r : ClaimRec} (runs : r.expires = false) : KeepsPlace r r.countedDown := by
  unfold ClaimRec.countedDown
  split
  · rename_i counts
    refine ⟨⟨rfl, rfl, rfl, rfl⟩, id, id, fun ok => ?_⟩
    rcases leaseOk_iff.mp ok with ⟨none, absent⟩ | ⟨n, some, lease, force, le⟩
    · exact leaseOk_iff.mpr (.inl ⟨by simp [none], absent⟩)
    · have positive : n ≠ 0#16 := fun zero => by simp [ClaimRec.expires, counts, some, zero] at runs
      refine leaseOk_iff.mpr (.inr ⟨n - 1#16, by simp [some], lease, force, ?_⟩)
      change (n - 1#16).toNat ≤ r.lease.toNat
      bv_omega
  · exact .refl r

/-! ### Creation (R2, R15, R29) -/

theorem newRecord_role (h : HostId) (session : Byte) (a : ClaimArgs) (id : Nat) (seq : Half) (slot : Nat) :
    (newRecord h session a id seq slot).role = a.body.role := by
  obtain ⟨body, lease, slots⟩ := a
  cases body <;> rfl

/-- R29: the slot is free in the forward view. -/
theorem conflicts_eq_false {rs : List ClaimRec} {h : HostId} {role : Role} {slot : Nat} :
    conflicts rs h role slot = false ↔
      ∀ q ∈ rs, q.slot = slot → q.forward = true →
        ¬(role = .talk ∧ q.role = .talk) ∧ ¬(q.host = h ∧ q.role = role) := by
  rw [conflicts, Bool.or_eq_false_iff, Bool.and_eq_false_iff, Option.isSome_eq_false_iff,
    Option.isNone_iff_eq_none, keyForward, List.find?_eq_none, decide_eq_false_iff_not, List.any_eq_false]
  simp only [Bool.and_eq_true, decide_eq_true_eq, ClaimRec.isTalk, ClaimRec.hasKey, not_and, and_imp]
  constructor
  · rintro ⟨talk, key⟩ q m slot forward
    exact ⟨fun r1 r2 => talk.elim (absurd r1) fun no => no q m r2 slot forward,
      fun r1 r2 => key q m r1 slot r2 forward⟩
  · intro free
    refine ⟨?_, fun q m host slot role forward => (free q m slot forward).2 host role⟩
    by_cases talk : role = .talk
    · exact .inr fun q m r slot forward => (free q m slot forward).1 talk r
    · exact .inl talk

theorem recordsLaw_create {rs : List ClaimRec} {slots nextId : Nat} (law : RecordsLaw rs slots nextId) {h : HostId}
    {a : ClaimArgs} {slot : Nat} (session : Byte) (seq : Half) (free : conflicts rs h a.body.role slot = false)
    (room : recordCount rs h < Config.maxClaims) (inFrame : slot < slots) :
    RecordsLaw (rs ++ [newRecord h session a nextId seq slot]) slots (nextId + 1) := by
  have none := conflicts_eq_false.mp free
  have role := newRecord_role h session a nextId seq slot
  generalize made : newRecord h session a nextId seq slot = n at role
  have at_ : n.id = nextId ∧ n.host = h ∧ n.slot = slot ∧ n.state = .pendingAdd ∧ n.remaining = Option.none := by
    subst made; exact ⟨rfl, rfl, rfl, rfl, rfl⟩
  obtain ⟨id, host, slot_, state, remaining⟩ := at_
  have notForce : inForce n = false := by simp [inForce, state]
  have below (r : ClaimRec) (m : r ∈ rs ++ [n]) : r ∈ rs ∨ r = n := by simpa using m
  refine ⟨fun x => ?_, fun g x ro => ?_, fun g => ?_, fun r m => ?_, fun r m => ?_, ?_, fun r m => ?_⟩
  · obtain ⟨forward, force⟩ := law.talk x
    simp only [List.countP_append, List.countP_singleton, notForce, Bool.and_false, Bool.false_eq_true, if_false]
    refine ⟨?_, force⟩
    split
    · rename_i on
      simp only [Bool.and_eq_true, decide_eq_true_eq, ClaimRec.isTalk] at on
      have zero : rs.countP (fun r => r.isTalk && decide (r.slot = x) && r.forward) = 0 := by
        refine List.countP_eq_zero.mpr fun q m => ?_
        simp only [Bool.and_eq_true, decide_eq_true_eq, ClaimRec.isTalk]
        rintro ⟨⟨talk, at_⟩, fwd⟩
        exact (none q m (at_.trans (on.1.2.symm.trans slot_)) fwd).1 ⟨role.symm.trans on.1.1, talk⟩
      omega
    · exact forward
  · obtain ⟨forward, force⟩ := law.key g x ro
    simp only [List.countP_append, List.countP_singleton, notForce, Bool.and_false, Bool.false_eq_true, if_false]
    refine ⟨?_, force⟩
    split
    · rename_i on
      simp only [Bool.and_eq_true, decide_eq_true_eq, ClaimRec.hasKey] at on
      obtain ⟨⟨onHost, onSlot, onRole⟩, -⟩ := on
      have zero : rs.countP (fun r => r.hasKey g x ro && r.forward) = 0 := by
        refine List.countP_eq_zero.mpr fun q m => ?_
        simp only [Bool.and_eq_true, decide_eq_true_eq, ClaimRec.hasKey]
        rintro ⟨⟨qHost, qSlot, qRole⟩, fwd⟩
        exact (none q m (qSlot.trans (onSlot.symm.trans slot_)) fwd).2
          ⟨qHost.trans (onHost.symm.trans host), qRole.trans (onRole.symm.trans role)⟩
      omega
    · exact forward
  · have before := law.count g
    simp only [recordCount, List.countP_append, List.countP_singleton, decide_eq_true_eq, host] at before room ⊢
    split
    · rename_i own
      subst own
      omega
    · exact before
  · rcases below r m with m | rfl
    · exact law.lease r m
    · exact leaseOk_iff.mpr (.inl ⟨remaining, .inr state⟩)
  · rcases below r m with m | rfl
    · exact law.slot r m
    · rwa [slot_]
  · rw [List.map_append, List.map_singleton, id, List.nodup_append]
    refine ⟨law.unique, List.nodup_singleton _, fun x mx y my => ?_⟩
    obtain ⟨r, m, rfl⟩ := List.mem_map.mp mx
    rw [List.mem_singleton.mp my]
    exact (law.below r m).ne
  · rcases below r m with m | rfl
    · exact (law.below r m).trans (Nat.lt_succ_self _)
    · rw [id]; exact Nat.lt_succ_self _

/-! ### Adoption (R52, R53) -/

theorem adopted_sameKey (r : ClaimRec) : SameKey r r.adopted := by
  obtain ⟨id, host, slot, role⟩ :=
    (keepsPlace_onTalk (fun t => { t with underruns := 0#8, reported := false }) r).toSameKey
  exact ⟨id, host, slot, role⟩

/-- The record the adoption step makes of a record. -/
def adoptedIn (rs : List ClaimRec) (r : ClaimRec) : ClaimRec := if isAdopted rs r then r.adopted else r

theorem adoptedIn_sameKey (rs : List ClaimRec) (r : ClaimRec) : SameKey r (adoptedIn rs r) := by
  unfold adoptedIn
  split
  · exact adopted_sameKey r
  · exact ⟨rfl, rfl, rfl, rfl⟩

theorem isAdopted_pendingAdd {rs : List ClaimRec} {r : ClaimRec} (adopted : isAdopted rs r = true) :
    r.state = .pendingAdd := by
  simp only [isAdopted, Bool.and_eq_true, decide_eq_true_eq] at adopted
  exact adopted.1

theorem adoptedIn_forward {rs : List ClaimRec} {r : ClaimRec} (forward : (adoptedIn rs r).forward = true) :
    r.forward = true := by
  unfold adoptedIn at forward
  split at forward
  · rename_i adopted
    simp [ClaimRec.forward, isAdopted_pendingAdd adopted]
  · exact forward

/-- R53: where two TALK records stand on a slot none of them is adopted. -/
theorem adoptedIn_crowded {rs : List ClaimRec} {r : ClaimRec} (talk : r.isTalk = true)
    (crowded : 2 ≤ talkersOn rs r.slot) : adoptedIn rs r = r := by
  simp [adoptedIn, isAdopted, heldBack, talk, crowded]

theorem adoptedIn_leaseOk {rs : List ClaimRec} {r : ClaimRec} (ok : leaseOk r) : leaseOk (adoptedIn rs r) := by
  unfold adoptedIn
  split
  · by_cases unleased : r.lease = 0#16
    · refine leaseOk_iff.mpr (.inl ⟨by simp [ClaimRec.adopted, unleased], .inl ?_⟩)
      rw [← unleased]
      unfold ClaimRec.adopted ClaimRec.onTalk
      split <;> rfl
    · have lease : r.adopted.lease = r.lease := by
        unfold ClaimRec.adopted ClaimRec.onTalk
        split <;> rfl
      refine leaseOk_iff.mpr (.inr ⟨r.lease, by simp [ClaimRec.adopted, unleased], by rwa [lease], nofun, ?_⟩)
      rw [lease]
  · exact ok

/-- A record that the removal step leaves is in the forward view, or a TALK record draining. -/
theorem forward_or_talk {r : ClaimRec} (stays : leaving r = false) : r.forward = true ∨ r.isTalk = true := by
  unfold leaving at stays
  split at stays
  · cases stays
  · exact .inr (by simpa using stays)
  · rename_i state; exact .inl (by simp [ClaimRec.forward, state])
  · rename_i state; exact .inl (by simp [ClaimRec.forward, state])

theorem recordsLaw_adoption {rs : List ClaimRec} {slots nextId : Nat} (law : RecordsLaw rs slots nextId)
    (stay : ∀ r ∈ rs, leaving r = false) : RecordsLaw (rs.map (adoptedIn rs)) slots nextId := by
  have key := adoptedIn_sameKey rs
  have talkForce (slot : Nat) :
      (rs.map (adoptedIn rs)).countP (fun r => r.isTalk && decide (r.slot = slot) && inForce r) ≤ 1 := by
    rw [List.countP_map]
    by_cases crowded : 2 ≤ talkersOn rs slot
    · refine (List.countP_mono_left fun r _ => ?_).trans (law.talk slot).2
      simp only [Function.comp_apply, (key r).isTalk, (key r).slot, Bool.and_eq_true, decide_eq_true_eq]
      rintro ⟨⟨talk, rfl⟩, force⟩
      rw [adoptedIn_crowded talk crowded] at force
      exact ⟨⟨talk, rfl⟩, force⟩
    · have few : talkersOn rs slot ≤ 1 := by omega
      refine (List.countP_mono_left fun r _ => ?_).trans few
      simp only [Function.comp_apply, (key r).isTalk, (key r).slot, Bool.and_eq_true]
      exact fun on => on.1
  refine ⟨fun slot => ⟨?_, talkForce slot⟩, fun h slot role => ⟨?_, ?_⟩, fun h => ?_, ?_, ?_, ?_, ?_⟩
  · rw [List.countP_map]
    refine (List.countP_mono_left fun r _ => ?_).trans (law.talk slot).1
    simp only [Function.comp_apply, (key r).isTalk, (key r).slot, Bool.and_eq_true]
    exact fun on => ⟨on.1, adoptedIn_forward on.2⟩
  · rw [List.countP_map]
    refine (List.countP_mono_left fun r _ => ?_).trans (law.key h slot role).1
    simp only [Function.comp_apply, (key r).hasKey, Bool.and_eq_true]
    exact fun on => ⟨on.1, adoptedIn_forward on.2⟩
  · cases role with
    | talk =>
      refine (List.countP_mono_left fun r _ => ?_).trans (talkForce slot)
      simp only [ClaimRec.hasKey, ClaimRec.isTalk, Bool.and_eq_true, decide_eq_true_eq]
      exact fun on => ⟨⟨on.1.2.2, on.1.2.1⟩, on.2⟩
    | listen =>
      rw [List.countP_map]
      refine (List.countP_mono_left fun r m => ?_).trans (law.key h slot .listen).1
      simp only [Function.comp_apply, (key r).hasKey, Bool.and_eq_true]
      rintro ⟨has, -⟩
      refine ⟨has, (forward_or_talk (stay r m)).resolve_right fun talk => ?_⟩
      simp only [ClaimRec.hasKey, ClaimRec.isTalk, decide_eq_true_eq] at has talk
      rw [has.2.2] at talk
      cases talk
  · rw [recordCount, List.countP_map]
    refine (List.countP_mono_left fun r _ => ?_).trans (law.count h)
    simp only [Function.comp_apply, (key r).host]
    exact id
  · rintro q m
    obtain ⟨r, mr, rfl⟩ := List.mem_map.mp m
    exact adoptedIn_leaseOk (law.lease r mr)
  · rintro q m
    obtain ⟨r, mr, rfl⟩ := List.mem_map.mp m
    rw [(key r).slot]; exact law.slot r mr
  · rw [List.map_map, show ClaimRec.id ∘ adoptedIn rs = ClaimRec.id from funext fun r => (key r).id]
    exact law.unique
  · rintro q m
    obtain ⟨r, mr, rfl⟩ := List.mem_map.mp m
    rw [(key r).id]; exact law.below r mr

/-! ### The boundary procedure (R46 to R53) -/

theorem releaseComplete_of_leaving {qs : List TxQueue} {r : ClaimRec} (gone : leaving r = true) :
    releaseComplete qs r = true := by
  unfold leaving at gone
  split at gone
  · rename_i state; simp [releaseComplete, state]
  · rename_i state; simp [releaseComplete, state, gone]
  · cases gone
  · cases gone

theorem countedDown_state (r : ClaimRec) : r.countedDown.state = r.state := by
  unfold ClaimRec.countedDown
  split <;> rfl

theorem countedDown_body (r : ClaimRec) : r.countedDown.body = r.body := by
  unfold ClaimRec.countedDown
  split <;> rfl

theorem countedDown_isTalk (r : ClaimRec) : r.countedDown.isTalk = r.isTalk := by
  rw [ClaimRec.isTalk, ClaimRec.role, countedDown_body, ClaimRec.isTalk, ClaimRec.role]

theorem countedDown_leaving (r : ClaimRec) : leaving r.countedDown = leaving r := by
  simp only [leaving, countedDown_state, countedDown_isTalk]

/-- The records a list is left with by the lease step. -/
def leased (rs : List ClaimRec) : List ClaimRec := (rs.filter fun r => !r.expires).map ClaimRec.countedDown

theorem thinned_leased (rs : List ClaimRec) : Thinned rs (leased rs) := by
  induction rs with
  | nil => exact .nil
  | cons r rs ih =>
    by_cases gone : r.expires = true
    · have same : leased (r :: rs) = leased rs := by simp [leased, gone]
      rw [same]
      exact .cons_right ih
    · have same : leased (r :: rs) = r.countedDown :: leased rs := by simp [leased, gone]
      rw [same]
      exact .cons (keepsPlace_countedDown (by simpa using gone)) ih

/-- The lease step comes to the first record it expires. -/
theorem leaseUntil_some {rs before after : List ClaimRec} {e : ClaimRec} :
    leaseUntil rs = some (before, e, after) ↔
      ∃ passed, rs = passed ++ e :: after ∧ before = passed.map ClaimRec.countedDown ∧
        (∀ q ∈ passed, q.expires = false) ∧ e.expires = true := by
  induction rs generalizing before with
  | nil => simp [leaseUntil]
  | cons r rs ih =>
    unfold leaseUntil
    split
    · rename_i expires
      simp only [Option.some.injEq, Prod.mk.injEq]
      constructor
      · rintro ⟨rfl, rfl, rfl⟩
        exact ⟨[], rfl, rfl, by simp, expires⟩
      · rintro ⟨passed, split_, rfl, runs, -⟩
        cases passed with
        | nil => cases split_; exact ⟨rfl, rfl, rfl⟩
        | cons q passed =>
          cases split_
          rw [runs r List.mem_cons_self] at expires
          cases expires
    · rename_i runs
      constructor
      · intro found
        split at found
        · rename_i before' e' after' found'
          cases found
          obtain ⟨passed, rfl, rfl, runs', expires⟩ := ih.mp found'
          refine ⟨r :: passed, rfl, rfl, fun q m => ?_, expires⟩
          rcases List.mem_cons.mp m with rfl | m
          · simpa using runs
          · exact runs' q m
        · cases found
      · rintro ⟨passed, split_, rfl, runs', expires⟩
        cases passed with
        | nil => cases split_; exact absurd expires runs
        | cons q passed =>
          rw [List.cons_append, List.cons.injEq] at split_
          obtain ⟨rfl, rfl⟩ := split_
          have found := ih.mpr ⟨passed, rfl, rfl, fun q m => runs' q (List.mem_cons_of_mem _ m), expires⟩
          simp [found]

theorem finishProcedure_records (k : Word) (ls : List ListenerHost) (visited : Nat) (rs : List ClaimRec) :
    (finishProcedure k ls visited rs).records =
      (rs.take visited ++ leased (rs.drop visited)).map
        (adoptedIn (rs.take visited ++ leased (rs.drop visited))) := rfl

theorem recordsLaw_finishProcedure {rs : List ClaimRec} {slots nextId : Nat} (law : RecordsLaw rs slots nextId)
    (stay : ∀ r ∈ rs, leaving r = false) (k : Word) (ls : List ListenerHost) (visited : Nat) :
    RecordsLaw (finishProcedure k ls visited rs).records slots nextId := by
  have thin : Thinned rs (rs.take visited ++ leased (rs.drop visited)) := by
    conv => arg 1; rw [← List.take_append_drop visited rs]
    exact (Thinned.refl _).append (thinned_leased _)
  rw [finishProcedure_records]
  refine recordsLaw_adoption (recordsLaw_thinned law thin) fun r m => ?_
  rcases List.mem_append.mp m with m | m
  · exact stay r (List.mem_of_mem_take m)
  · obtain ⟨q, mq, rfl⟩ := List.mem_map.mp m
    rw [countedDown_leaving]
    exact stay q (List.mem_of_mem_drop (List.mem_of_mem_filter mq))

theorem recordsLaw_removal {rs : List ClaimRec} {slots nextId : Nat} (law : RecordsLaw rs slots nextId)
    (k : Word) (ls : List ListenerHost) (qs : List TxQueue) :
    RecordsLaw (removalStep k ls qs rs).records slots nextId ∧
      ∀ r ∈ (removalStep k ls qs rs).records, leaving r = false := by
  refine ⟨recordsLaw_thinned law (.of_sublist List.filter_sublist), fun r m => ?_⟩
  have stays := (List.mem_filter.mp m).2
  cases gone : leaving r with
  | false => rfl
  | true => simp [releaseComplete_of_leaving gone] at stays

theorem recordsLaw_runProcedure {rs : List ClaimRec} {slots nextId : Nat} (law : RecordsLaw rs slots nextId)
    (k : Word) (qs : List TxQueue) : RecordsLaw (runProcedure k qs rs).records slots nextId :=
  let ⟨left, stay⟩ := recordsLaw_removal law k (listenerHosts rs) qs
  recordsLaw_finishProcedure left stay k (listenerHosts rs) 0

end Sys2Proof.Machine
end

section
/-! O25: the law of the claim store (R3, R4, R13, R14). A step changes the records only where the RSC is free, or in a
boundary procedure, or by a write to the traffic fields. -/

namespace Sys2Proof.Machine

open Sys2Proof.Safety

/-! ### Lists of slots (R25) -/

theorem repeatFrom_eq_none {seen : List Nat} {i : Nat} {slots : List Nat} :
    repeatFrom seen i slots = none ↔ slots.Nodup ∧ ∀ x ∈ slots, x ∉ seen := by
  induction slots generalizing seen i with
  | nil => simp [repeatFrom]
  | cons x xs ih =>
    unfold repeatFrom
    split
    · rename_i m; simp [m]
    · rename_i m
      rw [ih, List.nodup_cons]
      constructor
      · rintro ⟨nodup, none⟩
        refine ⟨⟨fun mx => none x mx List.mem_cons_self, nodup⟩, fun y my seen => ?_⟩
        rcases List.mem_cons.mp my with rfl | my
        · exact m seen
        · exact none y my (List.mem_cons_of_mem _ seen)
      · rintro ⟨⟨fresh, nodup⟩, none⟩
        refine ⟨nodup, fun y my seen => ?_⟩
        rcases List.mem_cons.mp seen with rfl | seen
        · exact fresh my
        · exact none y (List.mem_cons_of_mem _ my) seen

/-- R25: no slot is named twice. -/
theorem firstRepeat_eq_none {slots : List Nat} : firstRepeat slots = none ↔ slots.Nodup := by
  rw [firstRepeat, repeatFrom_eq_none]
  simp

/-! ### The law of a state -/

theorem storeLaw_of_same {s u : State} (law : StoreLaw s) (rsc : u.rsc = s.rsc) (fmt : u.fre.fmt = s.fre.fmt) :
    StoreLaw u :=
  ⟨by rw [rsc, fmt]; exact law.store, by rw [rsc, fmt]; exact law.worked, by rw [rsc]; exact law.proc,
    by rw [rsc]; exact law.one⟩

/-- With the RSC free the law is that of the records alone. -/
theorem storeLaw_of_free {u : State} (free : rscFree u = true)
    (store : RecordsLaw u.rsc.records u.fre.fmt.slots u.rsc.nextId) : StoreLaw u := by
  obtain ⟨proc, worked⟩ := rscFree_iff.mp free
  exact ⟨store, fun k r at_ => absurd at_ (worked k r), by simp [proc], by simp [proc]⟩

theorem rscFree_congr {s u : State} (proc : u.rsc.proc = s.rsc.proc) (awaiting : u.rsc.awaiting = s.rsc.awaiting) :
    rscFree u = rscFree s := by
  simp only [rscFree, Rsc.holds, proc, awaiting]

/-! ### Claim requests (R22 to R38) -/

/-- The records obey their law, and what holds the RSC is as it was. -/
structure StoreKept (s u : State) : Prop where
  store    : RecordsLaw u.rsc.records s.fre.fmt.slots u.rsc.nextId
  proc     : u.rsc.proc = s.rsc.proc
  awaiting : u.rsc.awaiting = s.rsc.awaiting

theorem StoreKept.storeLaw {s u : State} (kept : StoreKept s u) (free : rscFree s = true) (fre : u.fre = s.fre) :
    StoreLaw u :=
  storeLaw_of_free ((rscFree_congr kept.proc kept.awaiting).trans free) (by rw [fre]; exact kept.store)

theorem StoreKept.of_rsc {s t u : State} (kept : StoreKept s t) (same : u.rsc = t.rsc) : StoreKept s u :=
  ⟨by rw [same]; exact kept.store, by rw [same]; exact kept.proc, by rw [same]; exact kept.awaiting⟩

theorem storeKept_pointAt {s : State} (law : StoreLaw s) (h : HostId) : StoreKept s (pointAt h s) :=
  ⟨law.store, rfl, rfl⟩

theorem storeKept_refl {s : State} (law : StoreLaw s) : StoreKept s s := ⟨law.store, rfl, rfl⟩

/-- The RSC after a record has been created (R2). -/
theorem createRecord_rsc (h : HostId) (session : Byte) (a : ClaimArgs) (s : State) (slot : Nat) :
    (createRecord h session a s slot).rsc =
      { s.rsc with
        records := s.rsc.records ++ [newRecord h session a s.rsc.nextId s.rsc.seq slot]
        seq := s.rsc.seq + 1#16, nextId := s.rsc.nextId + 1 } := by
  unfold createRecord
  dsimp only
  split <;> rfl

/-- A record created on one slot leaves the others as free as they were. -/
theorem conflicts_append {rs : List ClaimRec} {h g : HostId} {role : Role} {slot x : Nat} {session : Byte}
    {a : ClaimArgs} {id : Nat} {seq : Half} (other : x ≠ slot) :
    conflicts (rs ++ [newRecord g session a id seq slot]) h role x = conflicts rs h role x := by
  have away : (newRecord g session a id seq slot).slot ≠ x := Ne.symm other
  simp [conflicts, keyForward, ClaimRec.hasKey, away, List.find?_append]

theorem storeKept_createRecords {s t : State} {h : HostId} {session : Byte} {a : ClaimArgs} {slots : List Nat}
    (kept : StoreKept s t) (nodup : slots.Nodup) (below : ∀ x ∈ slots, x < s.fre.fmt.slots)
    (room : recordCount t.rsc.records h + slots.length ≤ Config.maxClaims)
    (free : ∀ x ∈ slots, conflicts t.rsc.records h a.body.role x = false) :
    StoreKept s (slots.foldl (createRecord h session a) t) := by
  induction slots generalizing t with
  | nil => exact kept
  | cons x xs ih =>
    obtain ⟨fresh, nodup⟩ := List.nodup_cons.mp nodup
    have rsc := createRecord_rsc h session a t x
    refine ih ⟨?_, by rw [rsc]; exact kept.proc, by rw [rsc]; exact kept.awaiting⟩ nodup
      (fun y m => below y (List.mem_cons_of_mem _ m)) ?_ fun y m => ?_
    · rw [rsc]
      rw [List.length_cons] at room
      exact recordsLaw_create kept.store session _ (free x List.mem_cons_self) (by omega)
        (below x List.mem_cons_self)
    · rw [List.length_cons] at room
      have one : recordCount [newRecord h session a t.rsc.nextId t.rsc.seq x] h = 1 := by simp [recordCount, newRecord]
      rw [rsc, recordCount, List.countP_append]
      change recordCount _ h + recordCount _ h + _ ≤ _
      omega
    · have other : y ≠ x := fun same => fresh (same ▸ m)
      rw [rsc, conflicts_append other]
      exact free y (List.mem_cons_of_mem _ m)

/-- R25 to R29: what a CLAIM that passes its checks has shown. -/
theorem claimRefusal_eq_none {s : State} {h : HostId} {a : ClaimArgs} :
    claimRefusal s h a = none ↔
      a.slots.Nodup ∧ (∀ x ∈ a.slots, x < s.fre.fmt.slots) ∧
        recordCount s.rsc.records h + a.slots.length ≤ Config.maxClaims ∧
        ∀ x ∈ a.slots, conflicts s.rsc.records h a.body.role x = false := by
  have repeats := firstRepeat_eq_none (slots := a.slots)
  unfold claimRefusal
  cases first : firstRepeat a.slots with
  | some i =>
    rw [first] at repeats
    simp only [reduceCtorEq, false_iff]
    exact fun ok => nomatch repeats.mpr ok.1
  | none =>
    have nodup := repeats.mp first
    dsimp only
    cases high : a.slots.findIdx? fun x => decide (s.fre.fmt.slots ≤ x) with
    | some i =>
      have some : (a.slots.findIdx? fun x => decide (s.fre.fmt.slots ≤ x)).isSome = true := by rw [high]; rfl
      rw [List.findIdx?_isSome, List.any_eq_true] at some
      obtain ⟨x, m, above⟩ := some
      simp only [reduceCtorEq, false_iff]
      exact fun ok => absurd (ok.2.1 x m) (by simpa using above)
    | none =>
      have below : ∀ x ∈ a.slots, x < s.fre.fmt.slots := by simpa [List.findIdx?_eq_none_iff] using high
      dsimp only
      split
      · rename_i full
        simp only [reduceCtorEq, false_iff]
        exact fun ok => absurd ok.2.2.1 (by omega)
      · rename_i room
        cases taken : a.slots.findIdx? (conflicts s.rsc.records h a.body.role) with
        | some i =>
          have some : (a.slots.findIdx? (conflicts s.rsc.records h a.body.role)).isSome = true := by rw [taken]; rfl
          rw [List.findIdx?_isSome, List.any_eq_true] at some
          obtain ⟨x, m, conflict⟩ := some
          simp only [reduceCtorEq, false_iff]
          exact fun ok => absurd (ok.2.2.2 x m) (by simp [conflict])
        | none =>
          have free : ∀ x ∈ a.slots, conflicts s.rsc.records h a.body.role x = false := by
            simpa [List.findIdx?_eq_none_iff] using taken
          simp only [true_iff]
          exact ⟨nodup, below, by omega, free⟩

section
variable {s u : State} {h : HostId} (law : StoreLaw s)

include law

theorem claimStep_storeLaw (e : claimStep s = some u) : StoreLaw u := by
  have fre := (claimStep_frame e).fre
  obtain ⟨h, r, chosen, -, rfl⟩ := claimStep_iff.mp e
  have pointed := storeKept_pointAt law h
  refine StoreKept.storeLaw (s := s) ?_ chosen.1 fre
  unfold claimFor
  split
  · exact pointed.of_rsc (answer_rsc ..)
  · split
    · exact pointed.of_rsc (answer_rsc ..)
    · rename_i passed
      obtain ⟨nodup, below, room, free⟩ := claimRefusal_eq_none.mp passed
      exact (storeKept_createRecords pointed nodup below room free).of_rsc (answer_rsc ..)

omit law in
/-- What a release does to the RSC: the record is withdrawn or turned, or there is none (R33, R34). -/
theorem releaseSlot_rsc (h : HostId) (role : Role) (mode : ReleaseMode) (s : State) (slot : Nat) :
    (releaseSlot h role mode s slot).rsc =
      match keyForward s.rsc.records h slot role with
      | none => s.rsc
      | some r =>
        { s.rsc with records :=
            if r.state = .pendingAdd then s.rsc.records.filter fun q => decide (q.id ≠ r.id)
            else updateRec r.id (fun q => { q with state := .pendingRelease mode }) s.rsc.records } := by
  unfold releaseSlot
  cases keyForward s.rsc.records h slot role with
  | none => rfl
  | some r =>
    dsimp only
    split <;> rfl

omit law in
theorem storeKept_releaseSlot {t : State} {role : Role} {mode : ReleaseMode} {slot : Nat} (kept : StoreKept s t) :
    StoreKept s (releaseSlot h role mode t slot) := by
  have rsc := releaseSlot_rsc h role mode t slot
  cases found : keyForward t.rsc.records h slot role with
  | none =>
    rw [found] at rsc
    exact kept.of_rsc rsc
  | some r =>
    rw [found] at rsc
    refine ⟨?_, by rw [rsc]; exact kept.proc, by rw [rsc]; exact kept.awaiting⟩
    rw [rsc]
    refine recordsLaw_thinned kept.store ?_
    dsimp only
    split
    · exact .of_sublist List.filter_sublist
    · rename_i force
      refine .updateRec fun q m same => keepsPlace_released mode ?_
      rwa [record_eq_of_id kept.store m (List.mem_of_find?_eq_some found) same]

theorem releaseStep_storeLaw (e : releaseStep s = some u) : StoreLaw u := by
  have fre := (releaseStep_frame e).fre
  obtain ⟨h, r, chosen, -, rfl⟩ := releaseStep_iff.mp e
  have pointed := storeKept_pointAt law h
  refine StoreKept.storeLaw (s := s) ?_ chosen.1 fre
  unfold releaseFor
  split
  · exact pointed.of_rsc (answer_rsc ..)
  · split
    · exact pointed.of_rsc (answer_rsc ..)
    · exact StoreKept.of_rsc (List.foldlRecOn _ _ pointed fun t kept slot _ => storeKept_releaseSlot kept)
        (answer_rsc ..)

omit law in
theorem storeKept_renewSlot {t : State} {role : Role} {slot : Nat} (kept : StoreKept s t) :
    StoreKept s (renewSlot h role t slot) := by
  unfold renewSlot
  split
  · exact ⟨recordsLaw_thinned kept.store (.updateRec fun q _ _ => keepsPlace_renewed q), kept.proc, kept.awaiting⟩
  · exact kept

theorem renewStep_storeLaw (e : renewStep s = some u) : StoreLaw u := by
  have fre := (renewStep_frame e).fre
  obtain ⟨h, r, chosen, -, rfl⟩ := renewStep_iff.mp e
  have pointed := storeKept_pointAt law h
  refine StoreKept.storeLaw (s := s) ?_ chosen.1 fre
  unfold renewFor
  split
  · exact pointed.of_rsc (answer_rsc ..)
  · split
    · exact pointed.of_rsc (answer_rsc ..)
    · exact StoreKept.of_rsc (List.foldlRecOn _ _ pointed fun t kept slot _ => storeKept_renewSlot kept)
        (answer_rsc ..)

theorem querySlotStep_storeLaw (e : querySlotStep s = some u) : StoreLaw u := by
  have fre := (querySlotStep_frame e).fre
  obtain ⟨h, r, chosen, -, rfl⟩ := querySlotStep_iff.mp e
  have pointed := storeKept_pointAt law h
  refine StoreKept.storeLaw (s := s) ?_ chosen.1 fre
  unfold querySlotFor
  split
  · exact pointed.of_rsc (answer_rsc ..)
  · split <;> exact pointed.of_rsc (answer_rsc ..)

/-! ### FORMAT, WRITE_WORDS and the session end -/

omit law in
/-- R79: the check against the claim store. -/
theorem slotInUse_eq_none {rs : List ClaimRec} {f : Nat} : slotInUse rs f = none ↔ ∀ q ∈ rs, q.slot < f := by
  unfold slotInUse
  dsimp only
  split
  · rename_i some
    obtain ⟨q, m, above⟩ := List.any_eq_true.mp some
    simp only [reduceCtorEq, false_iff]
    exact fun below => absurd (below q m) (by simpa using above)
  · rename_i none
    simpa using none

theorem formatStep_storeLaw (e : formatStep h s = some u) : StoreLaw u := by
  unfold formatStep at e
  split at e
  · rename_i r t taken
    obtain ⟨-, -, rfl⟩ := takeFair_some.mp taken
    have same {res : Result} {p : List Byte} : StoreLaw (answer h res p (markServed Kind.format.owner h s)) :=
      storeLaw_of_same law (answer_rsc ..) (congrArg (·.fmt) (answer_fre ..))
    split at e
    · cases e; exact same
    · split at e
      · cases e; exact same
      · split at e
        · rename_i free
          split at e
          · cases e; exact same
          · rename_i below
            cases e
            have rsc := answer_rsc h .ok [] ((markServed Kind.format.owner h s).onFre fun e => { e with fmt := ‹_› })
            refine storeLaw_of_free ((rscFree_congr (by rw [rsc]; rfl) (by rw [rsc]; rfl)).trans free) ?_
            rw [rsc, answer_fre]
            exact { law.store with slot := slotInUse_eq_none.mp below }
        · cases e
  · cases e

omit law in
theorem storeKept_writeTo {t : State} {slot : Nat} {es : List TxEntry} (kept : StoreKept s t) :
    StoreKept s (writeTo h slot es t) := by
  unfold writeTo
  split
  · split <;> exact kept.of_rsc (answer_rsc ..)
  · split
    · exact kept.of_rsc (answer_rsc ..)
    · dsimp only
      split
      · exact kept.of_rsc (answer_rsc ..)
      · split
        · exact kept.of_rsc (answer_rsc ..)
        · rename_i r _ _ _ _ _ _
          refine StoreKept.of_rsc (t := t.onRsc fun c =>
            { c with records := updateRec r.id ClaimRec.written c.records }) ?_ ?_
          · exact ⟨recordsLaw_thinned kept.store (.updateRec fun q _ _ => keepsPlace_written q), kept.proc,
              kept.awaiting⟩
          · rw [answer_rsc, appendEntries_rsc]

theorem writeWordsStep_storeLaw (e : writeWordsStep h s = some u) : StoreLaw u := by
  have fre := (writeWordsStep_frame e).fre
  unfold writeWordsStep at e
  split at e
  · rename_i free
    split at e
    · rename_i r t taken
      obtain ⟨-, -, rfl⟩ := takeFair_some.mp taken
      have took : StoreKept s (markServed Kind.writeWords.owner h s) := (storeKept_refl law).of_rsc rfl
      split at e
      · cases e; exact (took.of_rsc (answer_rsc ..)).storeLaw free fre
      · cases e; exact (storeKept_writeTo took).storeLaw free fre
    · cases e
  · cases e

/-- R11: a session end withdraws the records in PENDING_ADD and turns the others. -/
theorem rscSessionEndStep_storeLaw (e : rscSessionEndStep h s = some u) : StoreLaw u := by
  have fre := (rscSessionEndStep_frame e).fre
  unfold rscSessionEndStep at e
  split at e
  · rename_i ready
    cases e
    refine StoreKept.storeLaw (s := s) ⟨?_, ?_, ?_⟩ ready.2 fre
    · rw [report_rsc]
      refine recordsLaw_thinned (recordsLaw_thinned law.store (.of_sublist List.filter_sublist)) (.map fun r m => ?_)
      unfold ClaimRec.sessionEnded
      split
      · rename_i own
        refine keepsPlace_released .discard fun add => ?_
        simpa [ClaimRec.withdrawnBy, own, add] using (List.mem_filter.mp m).2
      · exact .refl r
    · rw [report_rsc]; rfl
    · rw [report_rsc]; rfl
  · cases e

/-! ### The boundary procedure (R44 to R56, R88) -/

omit law in
/-- R44: BOUNDARY_PROCEDURE carries out the rest of the procedure in progress, or the whole one of the oldest
notice. -/
theorem boundaryStep_some :
    boundaryStep s = some u ↔
      s.rsc.awaiting = none ∧
        ((∃ p, s.rsc.proc = some p ∧
            u = enact (finishProcedure p.frame p.listeners p.visited s.rsc.records)
              (s.onRsc fun c => { c with proc := none })) ∨
          (s.rsc.proc = none ∧ ∃ k ks, s.rsc.notices = k :: ks ∧
            u = enact (runProcedure k s.ws.queues s.rsc.records) (s.onRsc fun c => { c with notices := ks }))) := by
  unfold boundaryStep
  cases s.rsc.awaiting <;> cases s.rsc.proc <;> cases s.rsc.notices <;> simp [eq_comm]

theorem boundaryStep_storeLaw (e : boundaryStep s = some u) : StoreLaw u := by
  obtain ⟨quiet, ⟨p, at_, rfl⟩ | ⟨idle, k, ks, -, rfl⟩⟩ := boundaryStep_some.mp e
  · exact ⟨recordsLaw_finishProcedure law.store (law.proc (by rw [at_]; rfl)) _ _ _,
      fun k r worked => (nomatch quiet.symm.trans worked), nofun, nofun⟩
  · have gone : ∀ {P : Prop}, s.rsc.proc.isSome = true → P := fun some => by rw [idle] at some; cases some
    exact ⟨recordsLaw_runProcedure law.store _ _, fun k r worked => (nomatch quiet.symm.trans worked),
      fun some => gone some, fun some => gone some⟩

omit law in
/-- R50: an expiry leaves the records before and after the one expired in their places. -/
theorem expireNext_storeLaw {k : Word} {ls : List ListenerHost} {first rest : List ClaimRec}
    (store : RecordsLaw (first ++ rest) s.fre.fmt.slots s.rsc.nextId) (stay : ∀ r ∈ first ++ rest, leaving r = false)
    (quiet : s.rsc.awaiting = none) (e : expireNext k ls first rest s = some u) : StoreLaw u := by
  unfold expireNext at e
  split at e
  · rename_i before x after found
    obtain ⟨passed, rfl, rfl, runs, -⟩ := leaseUntil_some.mp found
    cases e
    have thin : Thinned (first ++ (passed ++ x :: after)) (first ++ passed.map ClaimRec.countedDown ++ after) := by
      rw [List.append_assoc]
      exact (Thinned.refl first).append
        ((Thinned.map fun q m => keepsPlace_countedDown (runs q m)).append (.of_sublist (List.sublist_cons_self x after)))
    refine ⟨recordsLaw_thinned store thin, fun k r worked => (nomatch quiet.symm.trans worked),
      fun _ r m => ?_, fun _ => quiet⟩
    have left : r ∈ first ++ passed.map ClaimRec.countedDown ++ after := m
    simp only [List.mem_append, List.mem_map] at left
    clear m
    rcases left with (m | ⟨q, m, rfl⟩) | m
    · exact stay r (List.mem_append_left _ m)
    · rw [countedDown_leaving]; exact stay q (List.mem_append_right _ (List.mem_append_left _ m))
    · exact stay r (List.mem_append_right _ (List.mem_append_right _ (List.mem_cons_of_mem _ m)))
  · cases e

omit law in
/-- R50: LEASE_EXPIRY goes on with the procedure in progress, or begins that of the oldest notice. -/
theorem leaseExpiryStep_some :
    leaseExpiryStep s = some u ↔
      s.rsc.awaiting = none ∧
        ((∃ p, s.rsc.proc = some p ∧
            expireNext p.frame p.listeners (s.rsc.records.take p.visited) (s.rsc.records.drop p.visited) s = some u) ∨
          (s.rsc.proc = none ∧ ∃ k ks, s.rsc.notices = k :: ks ∧
            expireNext k (listenerHosts s.rsc.records) []
              (removalStep k (listenerHosts s.rsc.records) s.ws.queues s.rsc.records).records
              (askWs (removalStep k (listenerHosts s.rsc.records) s.ws.queues s.rsc.records).asks
                (eventsFromRsc (removalStep k (listenerHosts s.rsc.records) s.ws.queues s.rsc.records).events
                  (s.onRsc fun c => { c with notices := ks }))) = some u)) := by
  unfold leaseExpiryStep
  cases s.rsc.awaiting <;> cases s.rsc.proc <;> cases s.rsc.notices <;> simp

theorem leaseExpiryStep_storeLaw (e : leaseExpiryStep s = some u) : StoreLaw u := by
  obtain ⟨quiet, ⟨p, at_, e⟩ | ⟨idle, k, ks, -, e⟩⟩ := leaseExpiryStep_some.mp e
  · refine expireNext_storeLaw ?_ ?_ quiet e
    · rw [List.take_append_drop]; exact law.store
    · rw [List.take_append_drop]; exact law.proc (by rw [at_]; rfl)
  · obtain ⟨left, stay⟩ := recordsLaw_removal law.store k (listenerHosts s.rsc.records) s.ws.queues
    exact expireNext_storeLaw (s := askWs _ (eventsFromRsc _ (s.onRsc fun c => { c with notices := ks })))
      (first := []) left stay quiet e

/-- The law after a step that leaves the records and what holds the RSC, or lets go of it. -/
theorem storeLaw_of_records (records : u.rsc.records = s.rsc.records) (nextId : u.rsc.nextId = s.rsc.nextId)
    (fmt : u.fre.fmt = s.fre.fmt) (proc : u.rsc.proc = s.rsc.proc)
    (worked : ∀ k r, u.rsc.awaiting = some (.worked k r) → RecordsLaw r.records s.fre.fmt.slots s.rsc.nextId)
    (one : s.rsc.proc.isSome = true → u.rsc.awaiting = none) : StoreLaw u :=
  ⟨by rw [records, fmt, nextId]; exact law.store, by rw [fmt, nextId]; exact worked,
    by rw [records, proc]; exact law.proc, by rw [proc]; exact one⟩

theorem awaitingStep_storeLaw (e : awaitingStep s = some u) : StoreLaw u := by
  unfold awaitingStep at e
  split at e
  · rename_i k sent
    have noProc : s.rsc.proc.isSome ≠ true := fun some => by simp [law.one some] at sent
    have worked := recordsLaw_runProcedure law.store k s.ws.queues
    dsimp only at e
    split at e
    · cases e
      refine storeLaw_of_records law (by simp) (by simp) (by simp) (by simp) (fun k' r at_ => ?_)
        fun some => absurd some noProc
      simp only [State.onFre_rsc, putSlot_rsc, State.onRsc_rsc, Option.some.injEq, Awaiting.worked.injEq] at at_
      exact at_.2 ▸ worked
    · cases e
      refine storeLaw_of_records law rfl rfl rfl rfl (fun k' r at_ => ?_) fun some => absurd some noProc
      simp only [State.onRsc_rsc, Option.some.injEq, Awaiting.worked.injEq] at at_
      exact at_.2 ▸ worked
  · cases e

theorem leadInEndStep_storeLaw (e : leadInEndStep s = some u) : StoreLaw u := by
  unfold leadInEndStep at e
  split at e
  · cases e; exact storeLaw_of_records law rfl rfl rfl rfl law.worked law.one
  · cases e

theorem frameBoundaryStep_storeLaw (e : frameBoundaryStep s = some u) : StoreLaw u := by
  unfold frameBoundaryStep at e
  dsimp only at e
  split at e
  · split at e <;> (cases e; exact storeLaw_of_records law rfl rfl rfl rfl law.worked law.one)
  · cases e

theorem expectedInstantStep_storeLaw (e : expectedInstantStep s = some u) : StoreLaw u := by
  unfold expectedInstantStep at e
  split at e
  · rename_i ready
    have quiet := ready.2.1
    simp only [rscQuiet, Bool.and_eq_true, Option.isNone_iff_eq_none] at quiet
    cases e
    refine storeLaw_of_records law rfl rfl ?_ rfl nofun (by simp [quiet.2])
    rw [State.onFre_fre]
    split <;> rfl
  · cases e

theorem loseLock_storeLaw (acq : Option Nat) : StoreLaw (loseLock acq s) := by
  unfold loseLock
  dsimp only
  split <;> exact storeLaw_of_records law rfl rfl rfl rfl nofun fun _ => rfl

/-- R5: a write to the traffic fields changes no record's place. -/
theorem writeTraffic_storeLaw (k : Word) (t : Traffic) : StoreLaw (writeTraffic k t s) := by
  obtain ⟨-, fre, -, -, rsc, -⟩ := writeTraffic_rest s k t
  have update : ∃ id f, (writeTraffic k t s).rsc.records = updateRec id (ClaimRec.onTalk f) s.rsc.records := by
    cases t with
    | wordSent id w => exact ⟨_, _, rfl⟩
    | underrun id =>
      refine ⟨id, fun p => { p with underruns := satByte p.underruns, reported := true }, ?_⟩
      unfold writeTraffic
      dsimp only
      split
      · split
        · split <;> rfl
        · rfl
      · rfl
  obtain ⟨id, f, records⟩ := update
  refine ⟨?_, by rw [fre, rsc]; exact law.worked, ?_, by rw [rsc]; exact law.one⟩
  · rw [fre, rsc, records]
    exact recordsLaw_thinned law.store (.updateRec fun q _ _ => keepsPlace_onTalk f q)
  · rw [rsc, records]
    intro some q m
    obtain ⟨r, mr, rfl⟩ := List.mem_map.mp m
    have stays := law.proc some r mr
    split
    · have state : (r.onTalk f).state = r.state := by
        unfold ClaimRec.onTalk
        split <;> rfl
      rw [leaving, state, (keepsPlace_onTalk f r).isTalk]
      exact stays
    · exact stays

theorem applyTraffic_storeLaw (k : Word) (t : Option Traffic) : StoreLaw (applyTraffic k t s) := by
  cases t with
  | none => exact law
  | some t => exact writeTraffic_storeLaw law k t

theorem confirmStep_storeLaw {k : Word} {r : BoundaryResult} {rxd : Bool}
    (worked : s.rsc.awaiting = some (.worked k r)) : StoreLaw (confirmStep k r rxd s) := by
  have noProc : s.rsc.proc.isSome ≠ true := fun some => by simp [law.one some] at worked
  have opened : StoreLaw (openFrame k (enact r (s.onRsc fun c => { c with awaiting := none }))) :=
    ⟨law.worked k r worked, nofun, fun some => absurd some noProc, fun _ => rfl⟩
  unfold confirmStep
  dsimp only
  split
  · exact storeLaw_of_same opened rfl rfl
  · exact storeLaw_of_same (applyTraffic_storeLaw opened k _) rfl rfl

theorem frameSyncStep_storeLaw {rxd : Bool} (e : frameSyncStep rxd s = some u) : StoreLaw u := by
  unfold frameSyncStep at e
  split at e
  · split at e
    · cases e
    · split at e
      · cases e; exact storeLaw_of_records law rfl rfl rfl rfl law.worked law.one
      · cases e; exact storeLaw_of_same law rfl rfl
    all_goals
      split at e
      · split at e
        · rename_i worked
          cases e; exact confirmStep_storeLaw law worked
        · cases e
        · cases e; exact storeLaw_of_same (loseLock_storeLaw law _) rfl rfl
      · cases e
  · cases e

theorem missingSyncStep_storeLaw {hfsync : Bool} (e : missingSyncStep hfsync s = some u) : StoreLaw u := by
  unfold missingSyncStep at e
  split at e
  · split at e
    · cases e; exact storeLaw_of_same (loseLock_storeLaw law _) rfl rfl
    · cases e
  · cases e
  · cases e

theorem slotStartStep_storeLaw (e : slotStartStep s = some u) : StoreLaw u := by
  unfold slotStartStep at e
  split at e
  · split at e
    · dsimp only at e
      have put (k : Word) (p : SlotPlan) : StoreLaw (applyTraffic k p.traffic (putSlot p s)) :=
        applyTraffic_storeLaw (storeLaw_of_same law (putSlot_rsc ..) (by rw [putSlot_fre])) k _
      split at e
      · cases e; exact put ..
      · cases e; exact storeLaw_of_same (put ..) rfl rfl
    · cases e
  · cases e

omit law

/-! ### Steps that change no format -/

theorem addVote_fmt (h : HostId) (s : State) : (addVote h s).fre.fmt = s.fre.fmt := by
  unfold addVote votesRaised
  dsimp only
  split
  · split
    · split <;> rfl
    all_goals rfl
  · rfl

theorem removeVote_fmt (h : HostId) (s : State) : (removeVote h s).fre.fmt = s.fre.fmt := by
  unfold removeVote votesEmptied
  dsimp only
  split
  · split
    case h_4 => split <;> rfl
    all_goals rfl
  · rfl

theorem runStep_fmt (e : runStep h s = some u) : u.fre.fmt = s.fre.fmt := by
  unfold runStep at e
  split at e
  · rename_i r t taken
    obtain ⟨-, -, rfl⟩ := takeFair_some.mp taken
    cases e
    rw [answer_fre, addVote_fmt, markServed_fre]
  · cases e

theorem haltStep_fmt (e : haltStep h s = some u) : u.fre.fmt = s.fre.fmt := by
  unfold haltStep at e
  split at e
  · rename_i r t taken
    obtain ⟨-, -, rfl⟩ := takeFair_some.mp taken
    cases e
    rw [answer_fre, removeVote_fmt, markServed_fre]
  · cases e

theorem freSessionEndStep_fmt (e : freSessionEndStep h s = some u) : u.fre.fmt = s.fre.fmt := by
  unfold freSessionEndStep at e
  split at e
  · cases e
    rw [report_fre, removeVote_fmt]
  · cases e

theorem slotEndStep_fmt {hfsync rxd : Bool} (e : slotEndStep hfsync rxd s = some u) : u.fre.fmt = s.fre.fmt := by
  unfold slotEndStep at e
  split at e
  · cases e
    rw [State.onFre_fre, offerAll_fre]
  · cases e

theorem bitClockStep_fmt {edge : Edge} {hfsync rxd : Bool} (e : bitClockStep edge hfsync rxd s = some u) :
    u.fre.fmt = s.fre.fmt := by
  unfold bitClockStep at e
  split at e
  · cases e
  · cases e; rfl
  · split at e
    · cases e
    · cases e; rfl
  · split at e
    · cases e
      rw [State.onFre_fre, Fre.riseInFrame]
      dsimp only
      split <;> rfl
    · cases e
  · split at e
    · cases e
      rw [State.onFre_fre, Fre.fallInFrame]
      dsimp only
      split <;> rfl
    · cases e

end

/-! ### Every command -/

theorem recordsLaw_nil (f n : Nat) : RecordsLaw [] f n where
  talk := by simp [TalkLaw]
  key := by simp [KeyLaw]
  count := by simp [CountLaw, recordCount]
  lease := by simp
  slot := by simp
  unique := List.nodup_nil
  below := by simp

theorem storeLaw_reset : StoreLaw State.reset where
  store := recordsLaw_nil _ _
  worked := nofun
  proc := nofun
  one := nofun

section
variable {s t : State} {o : Option State} (law : StoreLaw s) (ran : settle s o = .next t)

include law ran

theorem settle_storeLaw (keeps : ∀ {u}, o = some u → StoreLaw u) : StoreLaw t := by
  obtain ⟨u, stepped, rfl⟩ | ⟨-, rfl⟩ := settle_next ran
  · exact storeLaw_of_same (keeps stepped) (State.refreshAtn_rsc u) rfl
  · exact law

theorem settle_storeLaw_of_same (rsc : ∀ {u}, o = some u → u.rsc = s.rsc)
    (fmt : ∀ {u}, o = some u → u.fre.fmt = s.fre.fmt) : StoreLaw t :=
  settle_storeLaw law ran fun stepped => storeLaw_of_same law (rsc stepped) (fmt stepped)

theorem settle_storeLaw_of_keeps (keeps : ∀ {u}, o = some u → KeepsRscFre s u) : StoreLaw t :=
  settle_storeLaw_of_same law ran (fun stepped => (keeps stepped).rsc)
    fun stepped => congrArg (·.fmt) (keeps stepped).fre

theorem settle_storeLaw_of_outside (keeps : ∀ {u}, o = some u → OutsideEvu s u) : StoreLaw t :=
  settle_storeLaw_of_same law ran (fun stepped => (keeps stepped).rsc)
    fun stepped => congrArg (·.fmt) (keeps stepped).fre

theorem settle_storeLaw_of_blocks (keeps : ∀ {u}, o = some u → BlocksKept s u) : StoreLaw t :=
  settle_storeLaw_of_outside law ran fun stepped => ⟨(keeps stepped).1, (keeps stepped).2.1⟩

end

theorem exec_storeLaw {s t : State} (c : Instr) (law : StoreLaw s) (ran : exec c s = .next t) : StoreLaw t := by
  cases c with
  | status => exact settle_storeLaw_of_blocks law ran statusStep_blocks
  | collect => exact settle_storeLaw_of_blocks law ran collectStep_blocks
  | requestFrame => exact settle_storeLaw_of_blocks law ran requestStep_blocks
  | attach => exact settle_storeLaw_of_blocks law ran attachStep_blocks
  | detach => exact settle_storeLaw_of_blocks law ran detachStep_blocks
  | setAttention => exact settle_storeLaw_of_blocks law ran setAttentionStep_blocks
  | transactionOpening => exact settle_storeLaw_of_blocks law ran openingStep_blocks
  | claim => exact settle_storeLaw law ran (claimStep_storeLaw law)
  | release => exact settle_storeLaw law ran (releaseStep_storeLaw law)
  | renew => exact settle_storeLaw law ran (renewStep_storeLaw law)
  | querySlot => exact settle_storeLaw law ran (querySlotStep_storeLaw law)
  | format => exact settle_storeLaw law ran (formatStep_storeLaw law)
  | writeWords => exact settle_storeLaw law ran (writeWordsStep_storeLaw law)
  | rscSessionEnd => exact settle_storeLaw law ran (rscSessionEndStep_storeLaw law)
  | boundaryProcedure => exact settle_storeLaw law ran (boundaryStep_storeLaw law)
  | leaseExpiry => exact settle_storeLaw law ran (leaseExpiryStep_storeLaw law)
  | awaitingConfirmationNotice => exact settle_storeLaw law ran (awaitingStep_storeLaw law)
  | leadInEnd => exact settle_storeLaw law ran (leadInEndStep_storeLaw law)
  | frameBoundary => exact settle_storeLaw law ran (frameBoundaryStep_storeLaw law)
  | expectedInstant => exact settle_storeLaw law ran (expectedInstantStep_storeLaw law)
  | frameSync => exact settle_storeLaw law ran (frameSyncStep_storeLaw law)
  | missingSync => exact settle_storeLaw law ran (missingSyncStep_storeLaw law)
  | slotStart => exact settle_storeLaw law ran (slotStartStep_storeLaw law)
  | run => exact settle_storeLaw_of_same law ran (fun e => (runStep_frame e).rsc) runStep_fmt
  | halt => exact settle_storeLaw_of_same law ran (fun e => (haltStep_frame e).rsc) haltStep_fmt
  | freSessionEnd => exact settle_storeLaw_of_same law ran (fun e => (freSessionEndStep_frame e).rsc) freSessionEndStep_fmt
  | slotEnd => exact settle_storeLaw_of_same law ran (fun e => (slotEndStep_frame e).rsc) slotEndStep_fmt
  | bitClock => exact settle_storeLaw_of_same law ran (fun e => (bitClockStep_frame e).rsc) bitClockStep_fmt
  | queryEngine => exact settle_storeLaw_of_keeps law ran queryEngineStep_frame
  | setQuota => exact settle_storeLaw_of_keeps law ran setQuotaStep_frame
  | queryHost => exact settle_storeLaw_of_keeps law ran queryHostStep_frame
  | readWords => exact settle_storeLaw_of_keeps law ran readWordsStep_frame
  | clearOverflow => exact settle_storeLaw_of_keeps law ran clearOverflowStep_frame
  | wsSessionEnd => exact settle_storeLaw_of_keeps law ran wsSessionEndStep_frame
  | rxOffer => exact settle_storeLaw_of_keeps law ran rxOfferStep_frame
  | lossNotice => exact settle_storeLaw_of_keeps law ran lossNoticeStep_frame
  | wsBoundaryNotice => exact settle_storeLaw_of_keeps law ran wsBoundaryStep_frame
  | queueFlush => exact settle_storeLaw_of_keeps law ran queueFlushStep_frame
  | queueEnding => exact settle_storeLaw_of_keeps law ran queueEndingStep_frame
  | evuSessionEnd => exact settle_storeLaw_of_outside law ran evuSessionEndStep_frame
  | nextEvents => exact settle_storeLaw_of_outside law ran fun e => (nextEventsStep_frame e).2
  | eventTaken => exact settle_storeLaw_of_outside law ran fun e => (eventTakenStep_frame e).2
  | partReset =>
    cases ran
    exact storeLaw_of_same storeLaw_reset rfl rfl
  | refclkStop => exact nomatch ran

/-- Settles O25: every command keeps the law, whichever stands at the front of the queue. -/
theorem storeLawIsKept : Obligations.StoreLawIsKept := by
  intro s t law stepped
  unfold step at stepped
  split at stepped
  · rename_i c rest _
    exact exec_storeLaw (s := { s with pending := rest }) c (storeLaw_of_same law rfl rfl) stepped
  · cases stepped; exact law

end Sys2Proof.Machine
end

section
/-! O1, O3, O4: the block's step and part reset (R174, log 2). -/

namespace Sys2Proof.Machine
open Sys2Proof.Safety

theorem step_cons {s : State} {c : Instr} {rest : List Instr} (waits : s.pending = c :: rest) :
    step s = exec c { s with pending := rest } := by
  simp only [step, waits]

theorem step_nil {s : State} (idle : s.pending = []) : step s = .next s := by
  simp only [step, idle]

/-- Settles O1, from the two cases of the queue. -/
theorem stepTakesTheFrontCommand : Obligations.StepTakesTheFrontCommand :=
  fun _ => ⟨fun _ _ waits => step_cons waits, fun idle => step_nil idle⟩

/-! ### Part reset -/

theorem resetPart_port (s : State) (h : HostId) :
    (resetPart s).port h = { Port.reset with selLow := (s.port h).selLow } := Quad.get_mapHosts ..

theorem resetPart_store (s : State) (h : HostId) : (resetPart s).store h = WsHost.reset := Quad.get_all ..

theorem resetPart_evq (s : State) (h : HostId) : (resetPart s).evq h = ⟨[], false⟩ := Quad.get_all ..

theorem rscCleared_reset : rscCleared Rsc.reset := ⟨rfl, rfl, rfl, rfl, rfl, rfl, rfl⟩

theorem freCleared_reset : freCleared Fre.reset :=
  ⟨rfl, Quad.get_all false, rfl, rfl, rfl, rfl, rfl, rfl, rfl, rfl, rfl, rfl, rfl, rfl, rfl, rfl, rfl⟩

/-- Part reset reaches every block, whatever state it finds. -/
theorem resetPart_afterReset (s : State) : AfterReset (resetPart s) := by
  refine ⟨fun h => ?_, rscCleared_reset, freCleared_reset, fun h => ?_, rfl, rfl, rfl, rfl, resetPart_evq s,
    rfl, rfl, rfl, rfl⟩
  · rw [resetPart_port]
    exact ⟨rfl, rfl, rfl, rfl, rfl, rfl, rfl, rfl, rfl, rfl, rfl⟩
  · rw [resetPart_store]
    exact ⟨rfl, rfl, rfl, rfl, rfl, rfl, rfl⟩

/-- Settles O3. -/
theorem partResetClearsEveryBlock : Obligations.PartResetClearsEveryBlock :=
  fun s => ⟨resetPart s, exec_partReset s, resetPart_afterReset s, rfl⟩

/-- A part just reset, reset again, is the same: what holds after every part reset holds of the reset state. -/
theorem resetPart_reset : resetPart State.reset = State.reset := rfl

/-- Settles O4: each law of the reset state is the reset case of the invariant that keeps it. -/
theorem resetStateObeysTheLaws : Obligations.ResetStateObeysTheLaws := by
  have reset := resetPart_reset
  obtain ⟨votes, format, line⟩ := engineLaw_iff.mp (show EngineLaw State.reset.fre from engineLaw_reset)
  obtain ⟨port, event, sdo⟩ := hostLaws_iff.mp (reset ▸ hostLaws_resetPart State.reset)
  obtain ⟨latch, fill, offer⟩ := receiveLaw_iff.mp (reset ▸ receiveLaw_resetPart State.reset)
  exact ⟨reset ▸ resetPart_afterReset State.reset, cellLaw_reset, storeLaw_reset,
    reset ▸ atnLaw_resetPart State.reset, port, event, latch, format, votes, line, fill, offer, sdo⟩

end Sys2Proof.Machine
end

section
/-! O5 to O10: transactions at a port (R159 to R167). -/

namespace Sys2Proof.Machine
open Sys2Proof.Safety

/-! ### The status byte (R160) -/

theorem bitAt_getLsbD (b : Bool) {i j : Nat} (hi : i < 8) (hj : j < 8) :
    (bitAt b i).getLsbD j = (b && decide (i = j)) := by
  unfold bitAt
  cases b
  · simp
  · interval_cases i <;> interval_cases j <;> rfl

theorem isRunning_eq (e : EngineState) : e.isRunning = decide (e = .running ∨ e = .stopping) := by
  cases e <;> rfl

/-- Each bit of the status byte is the one Table 20 names. -/
theorem statusByte_bits (p : Port) (events overflow running : Bool) :
    (statusByte p events overflow running).getLsbD 7 = decide (p.state = .attached) ∧
    (statusByte p events overflow running).getLsbD 6 = p.inProgress.isSome ∧
    (statusByte p events overflow running).getLsbD 5 = p.held.isSome ∧
    (statusByte p events overflow running).getLsbD 4 = events ∧
    (statusByte p events overflow running).getLsbD 3 = overflow ∧
    (statusByte p events overflow running).getLsbD 2 = p.dropped ∧
    (statusByte p events overflow running).getLsbD 1 = p.frameError ∧
    (statusByte p events overflow running).getLsbD 0 = running := by
  simp only [statusByte, BitVec.getLsbD_or, bitAt_getLsbD, Nat.reduceLT]
  simp

/-! ### A change at one port -/

/-- A step that changes one port answers that port changed, every other port and every block as before. -/
theorem settle_onPort {s : State} {h : HostId} {o : Option State} {f : Port → Port}
    (e : o = some (s.onPort h f)) :
    ∃ t, settle s o = .next t ∧ t.port h = { f (s.port h) with atn := attentionNow (s.onPort h f) h } ∧
      OthersKept s t h ∧ BlocksKept s t := by
  refine ⟨_, settle_some e, ?_, fun g n => ?_, rfl, rfl, rfl, rfl, rfl⟩
  · rw [State.refreshAtn_port, State.onPort_port_self]
  · rw [portView_refreshAtn, State.onPort_port_ne s f n]

theorem portView_setAtn (p : Port) (b : Bool) : portView { p with atn := b } = portView p := rfl

theorem onPort_onPort (s : State) (h : HostId) (f g : Port → Port) :
    (s.onPort h f).onPort h g = s.onPort h (g ∘ f) := by
  cases h <;> rfl

/-- Settles O5: the opening captures the status byte as it stands. -/
theorem openingCapturesStatusByte : Obligations.OpeningCapturesStatusByte := by
  intro s h high
  have stepped : openingStep h s = some (s.onPort h fun p =>
      { p with selLow := true, framer := .receiving (statusNow s h), sdoLine := some (statusNow s h).msb }) := by
    simp [openingStep, high]
  obtain ⟨t, next, port, others, blocks⟩ := settle_onPort stepped
  obtain ⟨b7, b6, b5, b4, b3, b2, b1, b0⟩ :=
    statusByte_bits (s.port h) (!(s.evq h).events.isEmpty) (s.store h).latch s.fre.engine.isRunning
  refine ⟨t, statusNow s h, next, ?_, others, blocks, b7, b6, b5, b4, b3, b2, b1, ?_⟩
  · rw [port, portView_setAtn]
    simp [portView, BitVec.msb_eq_getLsbD_last]
  · rw [← isRunning_eq]; exact b0

/-! ### The end of a transaction (R159, R161) -/

theorem showsDropped_eq (st : Byte) : showsDropped st = st.getLsbD 2 := rfl
theorem showsFrameError_eq (st : Byte) : showsFrameError st = st.getLsbD 1 := rfl
theorem showsResponse_eq (st : Byte) : showsResponse st = st.getLsbD 5 := rfl

/-- A port whose transaction has ended after `bits` bits, having sent `stream`. -/
def endedPort (st : Byte) (stream : List Byte) (bits : Nat) (p : Port) : Port :=
  { p with
    framer := .idle, selLow := false, sdoLine := none, sdo := shiftOut stream bits
    dropped := p.dropped && !(decide (8 ≤ bits) && st.getLsbD 2)
    frameError := p.frameError && !(decide (8 ≤ bits) && st.getLsbD 1) }

theorem endTransaction_eq (h : HostId) (st : Byte) (stream : List Byte) (bits : Nat) (s : State) :
    endTransaction h st stream bits s = s.onPort h (endedPort st stream bits) := by
  unfold endTransaction endedPort clearShown
  by_cases whole : 8 ≤ bits <;> simp [whole, showsDropped_eq, showsFrameError_eq]

/-- The whole bytes of a stream that goes on with zeros (R159). -/
theorem shiftOut_bytes (stream : List Byte) (bits : Nat) :
    (shiftOut stream bits).bytes = (stream ++ List.replicate (bits / 8) 0x00#8).take (bits / 8) := by
  simp [shiftOut, List.take_append, List.take_replicate]

theorem statusStep_eq {s : State} {h : HostId} {st : Byte} (bits : Nat) (low : (s.port h).selLow = true)
    (open_ : (s.port h).framer = .receiving st) :
    statusStep h bits s = some (s.onPort h (endedPort st [st] bits)) := by
  simp [statusStep, low, open_, endTransaction_eq]

/-- Settles O6: the transaction ends after the status byte and zeros. -/
theorem statusTransactionClearsLatchesShown : Obligations.StatusTransactionClearsLatchesShown := by
  intro s h bits st low open_
  obtain ⟨t, next, port, others, blocks⟩ := settle_onPort (statusStep_eq bits low open_)
  refine ⟨t, next, ?_, ?_, others, blocks⟩
  · rw [port]; rfl
  · rw [port]; exact shiftOut_bytes [st] bits

/-! ### A collect (R166) -/

/-- A port whose collect has sent the response r after `bits` bits. -/
def collectedPort (st : Byte) (r : Response) (bits : Nat) (p : Port) : Port :=
  { endedPort st (st :: responseFrame r) bits p with
    held := if 8 * (1 + (responseFrame r).length) ≤ bits then none else p.held }

theorem collectStep_shown {s : State} {h : HostId} {st : Byte} {r : Response} {bits : Nat}
    (low : (s.port h).selLow = true) (open_ : (s.port h).framer = .receiving st) (whole : 8 ≤ bits)
    (held : (s.port h).held = some r) (shows_ : st.getLsbD 5 = true) :
    collectStep h bits s = some (s.onPort h (collectedPort st r bits)) := by
  simp only [collectStep, low, open_, held, showsResponse_eq, shows_, whole, and_self, if_true, endTransaction_eq]
  unfold collectedPort
  split
  · rw [onPort_onPort]; rfl
  · rfl

theorem collectStep_notShown {s : State} {h : HostId} {st : Byte} {bits : Nat} (low : (s.port h).selLow = true)
    (open_ : (s.port h).framer = .receiving st) (not : (s.port h).held = none ∨ st.getLsbD 5 = false) :
    collectStep h bits s = some (s.onPort h (endedPort st [st] bits)) := by
  obtain none | clear := not
  · simp [collectStep, low, open_, none, endTransaction_eq]
  · cases held : (s.port h).held with
    | none => simp [collectStep, low, open_, held, endTransaction_eq]
    | some r =>
      simp only [collectStep, low, open_, held, showsResponse_eq, clear, Bool.false_eq_true, false_and, if_true,
        if_false, endTransaction_eq]

/-- Settles O7: with RESPONSE_READY shown and a response held the response frame is sent, else zeros. -/
theorem collectSendsAndReleasesTheResponse : Obligations.CollectSendsAndReleasesTheResponse := by
  intro s h bits st body low open_ whole
  by_cases ready : (∃ r, (s.port h).held = some r) ∧ st.getLsbD 5 = true
  · obtain ⟨⟨r, held⟩, shows_⟩ := ready
    obtain ⟨t, next, port, others, blocks⟩ := settle_onPort (collectStep_shown low open_ whole held shows_)
    refine ⟨t, next, ?_, others, blocks, ?_, fun clear => ?_⟩
    · rw [port, portView_setAtn]; simp [portView, collectedPort, endedPort, whole]
    · rintro _ again - rfl
      cases held.symm.trans again
      have frame : responseFrame r = responseBody r ++ [crc8 (responseBody r)] := rfl
      have length : 1 + (responseFrame r).length = (responseBody r).length + 2 := by simp [frame]; omega
      refine ⟨?_, ?_⟩
      · rw [port]
        simp only [collectedPort, held, length]
        rfl
      · rw [port]
        exact shiftOut_bytes (st :: responseFrame r) bits
    · rw [clear] at shows_; cases shows_
  · have not : (s.port h).held = none ∨ st.getLsbD 5 = false := by
      cases held : (s.port h).held with
      | none => exact .inl rfl
      | some r => exact .inr (by simpa [held] using ready)
    obtain ⟨t, next, port, others, blocks⟩ := settle_onPort (collectStep_notShown (bits := bits) low open_ not)
    refine ⟨t, next, ?_, others, blocks, fun r held shows_ => absurd ⟨⟨r, held⟩, shows_⟩ ready, fun _ => ⟨?_, ?_⟩⟩
    · rw [port, portView_setAtn]; simp [portView, endedPort, whole]
    · rw [port]; rfl
    · rw [port]; exact shiftOut_bytes [st] bits

end Sys2Proof.Machine
end

section
/-! O8 to O10: request frames (R162 to R164). -/

namespace Sys2Proof.Machine
open Sys2Proof.Safety

/-! ### The framer (R162) -/

theorem nat8_toNat {n : Nat} (small : n < 256) : (nat8 n).toNat = n := by
  rw [nat8, BitVec.toNat_ofNat, Nat.mod_eq_of_lt small]

theorem nat8_toNat_eq (b : Byte) : nat8 b.toNat = b := BitVec.ofNat_toNat .. |>.trans (BitVec.setWidth_eq b)

/-- Settles O8: the length byte and the CRC byte say where the payload ends, so nothing else is a frame. -/
theorem framerReadsExactlyTheRequestFrames : Obligations.FramerReadsExactlyTheRequestFrames := by
  intro bytes extra f
  constructor
  · intro read
    unfold parseFrame at read
    split at read
    · rename_i kind tag p rest
      split at read
      · rename_i ok
        obtain ⟨small, length, none, crc⟩ := ok
        cases read
        obtain ⟨sent, last⟩ := List.getLast?_eq_some_iff.mp crc
        have drop : rest.dropLast = sent := by rw [last, List.dropLast_concat]
        have payload : rest.dropLast.length = p.toNat := by rw [List.length_dropLast, length]; rfl
        refine ⟨none, payload.trans_le small, ?_⟩
        dsimp only
        rw [payload, nat8_toNat_eq]
        rw [drop] at last ⊢
        rw [last, List.cons_append, List.cons_append, List.cons_append]
      · cases read
    · cases read
  · rintro ⟨rfl, small, rfl⟩
    have small' : f.payload.length ≤ Config.maxPayload := small
    have p : (nat8 f.payload.length).toNat = f.payload.length := nat8_toNat (by omega)
    simp [parseFrame, p, small']

/-! ### The end of a request transaction (R162 to R164) -/

/-- A well-formed request transaction ends as a status transaction would, the frame judged then. -/
theorem requestStep_eq {s : State} {h : HostId} {bytes : List Byte} {extra : Nat} {st : Byte}
    (shape : (Instr.requestFrame h bytes extra).wellFormed = true) (low : (s.port h).selLow = true)
    (open_ : (s.port h).framer = .receiving st) :
    8 ≤ 8 * bytes.length + extra ∧
      requestStep h bytes extra s =
        some (s.onPort h (receiveFrame bytes extra ∘ endedPort st [st] (8 * bytes.length + extra))) := by
  cases bytes with
  | nil => cases shape
  | cons first rest =>
    obtain ⟨notCollect, notStatus, -⟩ := of_decide_eq_true shape
    refine ⟨by simp; omega, ?_⟩
    simp only [requestStep, notCollect, notStatus, low, open_, if_true, if_false, endTransaction_eq, onPort_onPort]

theorem receiveFrame_bad {bytes : List Byte} {extra : Nat} (p : Port) (bad : parseFrame bytes extra = none) :
    receiveFrame bytes extra p = { p with frameError := true } := by simp only [receiveFrame, bad]

theorem receiveFrame_good {bytes : List Byte} {extra : Nat} {f : Frame} (p : Port)
    (good : parseFrame bytes extra = some f) : receiveFrame bytes extra p = judgeFrame f p := by
  simp only [receiveFrame, good]

/-! ### The judgement of a frame (R163, R164) -/

theorem judgeFrame_busy {f : Frame} {p : Port}
    (busy : p.inProgress.isSome = true ∨ p.held.isSome = true ∨ p.state = .detaching) :
    judgeFrame f p = { p with dropped := true } := if_pos busy

/-- What an idle port does with a frame: the request it has in progress from then on, or the response it holds at
once. -/
def verdict (state : PortState) (f : Frame) : Option Request × Option Response :=
  match Kind.ofByte f.kind with
  | none => (none, some ⟨f.kind, f.tag, .unknownKind, []⟩)
  | some k =>
    match portRefusal state k f.payload with
    | some res => (none, some ⟨f.kind, f.tag, res, []⟩)
    | none => (some ⟨k, f.tag, f.payload, [], HostReport.empty⟩, none)

theorem judgeFrame_idle {f : Frame} {p : Port} (idle : p.inProgress = none) (free : p.held = none)
    (notDetaching : p.state ≠ .detaching) :
    judgeFrame f p = { p with inProgress := (verdict p.state f).1, held := (verdict p.state f).2 } := by
  unfold judgeFrame verdict
  rw [if_neg (by simp [idle, free, notDetaching])]
  cases Kind.ofByte f.kind with
  | none => simp [idle]
  | some k =>
    dsimp only
    cases portRefusal p.state k f.payload with
    | some res => simp [idle]
    | none => simp [free]

/-- No other port has been served while the request waited: it has only now come. -/
theorem verdict_new (state : PortState) (f : Frame) :
    (verdict state f).1.map (fun r => { r with passed := [] }) = (verdict state f).1 := by
  unfold verdict
  split
  · rfl
  · split <;> rfl

/-- Settles O9: the judgement changes nothing but the latch it sets. -/
theorem badFrameAndDroppedFrameSetTheirLatch : Obligations.BadFrameAndDroppedFrameSetTheirLatch := by
  intro s h bytes extra st shape low open_ cause
  obtain ⟨whole, stepped⟩ := requestStep_eq shape low open_
  obtain ⟨t, next, port, others, blocks⟩ := settle_onPort stepped
  refine ⟨t, next, ?_, others, blocks⟩
  rw [port, portView_setAtn, Function.comp]
  cases read : parseFrame bytes extra with
  | none =>
    rw [receiveFrame_bad _ read]
    simp [portView, endedPort, whole]
  | some f =>
    have busy := cause.resolve_left (by rw [read]; nofun)
    rw [receiveFrame_good _ read, judgeFrame_busy (p := endedPort ..) busy]
    simp [portView, endedPort, whole]

/-! ### An accepted frame (R163, R164, R178) -/

theorem passedDetached_eq_false (k : Kind) :
    k.passedDetached = false ↔ k ∉ [.attach, .querySlot, .queryHost, .queryEngine] := by
  cases k <;> simp [Kind.passedDetached]

theorem ofByte_code {b : Byte} {k : Kind} (e : Kind.ofByte b = some k) : k.code = b := by
  simpa using List.find?_some e

/-- The port's checks as Table 19 orders them, at a port that is not DETACHING. -/
theorem portRefusal_eq {state : PortState} (k : Kind) (payload : List Byte) (n : state ≠ .detaching) :
    portRefusal state k payload =
      if state = .detached ∧ k ∉ [.attach, .querySlot, .queryHost, .queryEngine] then some .notAttached
      else if state = .attached ∧ k = .attach then some .state
      else if (k = .attach ∨ k = .detach) ∧ payload ≠ [] then some .badArgument
      else none := by
  have other : (k = .attach ∧ state ≠ .detached) ↔ (state = .attached ∧ k = .attach) := by
    cases state <;> simp_all
  simp only [portRefusal, passedDetached_eq_false, other]

/-- What a transaction of whole bytes sends after its status byte (R159). -/
theorem shiftOut_whole (st : Byte) {n : Nat} (some_ : 0 < n) :
    shiftOut [st] (8 * n + 0) = ⟨st :: List.replicate (n - 1) 0x00#8, []⟩ := by
  cases n with
  | zero => cases some_
  | succ n => simp [shiftOut, firstBits]

/-- Settles O10: the judgement touches the request and the response alone. -/
theorem acceptedFrameIsJudgedByItsPort : Obligations.AcceptedFrameIsJudgedByItsPort := by
  intro s h bytes extra st f shape low open_ read idle free notDetaching
  obtain ⟨whole, stepped⟩ := requestStep_eq shape low open_
  obtain ⟨t, next, port, others, blocks⟩ := settle_onPort stepped
  obtain ⟨rfl, -, written⟩ := (framerReadsExactlyTheRequestFrames bytes extra f).mp read
  have some_ : 0 < bytes.length := by rw [written]; simp
  have judged : t.port h =
      { endedPort st [st] (8 * bytes.length + 0) (s.port h) with
        inProgress := (verdict (s.port h).state f).1, held := (verdict (s.port h).state f).2,
        atn := (t.port h).atn } := by
    rw [port, Function.comp, receiveFrame_good _ read,
      judgeFrame_idle (p := endedPort ..) idle free notDetaching]
    rfl
  have inProgress : (t.port h).inProgress = (verdict (s.port h).state f).1 := by rw [judged]
  have held : (t.port h).held = (verdict (s.port h).state f).2 := by rw [judged]
  refine ⟨t, next, others, blocks, ?_, fun unknown => ?_, fun k known => ⟨ofByte_code known, ?_⟩⟩
  · rw [inProgress, held, judged]
    simp only [portView, endedPort, verdict_new, shiftOut_whole st some_]
    simp [show 8 ≤ 8 * bytes.length by omega]
  · rw [inProgress, held, verdict, unknown]
    exact ⟨rfl, rfl⟩
  · rw [inProgress, held, verdict, known]
    dsimp only
    rw [portRefusal_eq k f.payload notDetaching]
    split
    · exact ⟨rfl, rfl⟩
    · split
      · exact ⟨rfl, rfl⟩
      · split <;> exact ⟨rfl, rfl⟩

end Sys2Proof.Machine
end

section
/-! SUPPORT. What a step that answers a request answers: its reply and its blocks, said once. -/

namespace Sys2Proof.Machine
open Sys2Proof.Safety

/-- The blocks of t are those of v. -/
structure SameBlocks (v t : State) : Prop where
  rsc     : t.rsc = v.rsc
  fre     : t.fre = v.fre
  ws      : t.ws = v.ws
  evu     : t.evu = v.evu
  pending : t.pending = v.pending

theorem SameBlocks.refreshAtn (v : State) : SameBlocks v v.refreshAtn := ⟨rfl, rfl, rfl, rfl, rfl⟩

theorem SameBlocks.blocksKept {s v t : State} (same : SameBlocks v t) (kept : BlocksKept s v) : BlocksKept s t := by
  obtain ⟨rsc, fre, ws, evu, pending⟩ := same
  simpa only [BlocksKept, rsc, fre, ws, evu, pending] using kept

theorem SameBlocks.evq {v t : State} (same : SameBlocks v t) (g : HostId) : t.evq g = v.evq g :=
  evq_of_evu same.evu g

theorem SameBlocks.store {v t : State} (same : SameBlocks v t) (g : HostId) : t.store g = v.store g := by
  rw [State.store, same.ws, State.store]

theorem blocksKept_refl (s : State) : BlocksKept s s := ⟨rfl, rfl, rfl, rfl, rfl⟩

theorem blocksKept_markServed (o : Owner) (h : HostId) (s : State) : BlocksKept s (markServed o h s) :=
  ⟨rfl, rfl, rfl, rfl, rfl⟩

/-- A step that answers port h's request in a state whose ports look as before: the reply, and that state's
blocks. -/
theorem settle_answer {s v : State} {o : Option State} {h : HostId} {r : Request} {res : Result} {p : List Byte}
    (e : o = some (answer h res p v)) (kept : PortsKept s v) (asked : (s.port h).inProgress = some r) :
    ∃ t, settle s o = .next t ∧ Replied s t h r res p ∧ SameBlocks v t :=
  ⟨_, settle_some e, replied_of_answer kept asked, by simp, by simp, by simp, by simp, by simp⟩

/-- The same of a step that leaves every block as it is. -/
theorem settle_answer_kept {s v : State} {o : Option State} {h : HostId} {r : Request} {res : Result} {p : List Byte}
    (e : o = some (answer h res p v)) (kept : PortsKept s v) (asked : (s.port h).inProgress = some r)
    (blocks : BlocksKept s v) :
    ∃ t, settle s o = .next t ∧ Replied s t h r res p ∧ BlocksKept s t := by
  obtain ⟨t, next, replied, same⟩ := settle_answer e kept asked
  exact ⟨t, next, replied, same.blocksKept blocks⟩

/-- A step that keeps the ports: its effect with the ATN outputs brought up to date. -/
theorem settle_kept {s v : State} {o : Option State} (e : o = some v) (kept : PortsKept s v) :
    ∃ t, settle s o = .next t ∧ PortsKept s t ∧ SameBlocks v t :=
  ⟨_, settle_some e, fun g => by rw [portView_refreshAtn]; exact kept g, .refreshAtn v⟩

/-- A step that changes port h and answers its request. -/
theorem settle_answer_onPort {s : State} {o : Option State} {h : HostId} {f : Port → Port} {r : Request}
    {res : Result} {p : List Byte} (e : o = some (answer h res p (s.onPort h f)))
    (asked : (f (s.port h)).inProgress = some r) :
    ∃ t, settle s o = .next t ∧
      t.port h = { f (s.port h) with
        inProgress := none, held := some ⟨r.kind.code, r.tag, res, p⟩, atn := attentionNow t h } ∧
      OthersKept s t h ∧ BlocksKept s t := by
  have asked' : ((s.onPort h f).port h).inProgress = some r := by rw [State.onPort_port_self]; exact asked
  refine ⟨_, settle_some e, ?_, fun g n => ?_, ?_⟩
  · rw [attentionNow_refreshAtn, State.refreshAtn_port, answer_port_self asked', State.onPort_port_self]
  · rw [portView_refreshAtn, answer_port_ne _ _ _ _ n, State.onPort_port_ne s f n]
  · exact (SameBlocks.refreshAtn _).blocksKept (blocksKept_answer h res p (blocksKept_onPort h f s))

end Sys2Proof.Machine
end

section
/-! O11, O12: the port's own requests (R168 to R173). -/

namespace Sys2Proof.Machine
open Sys2Proof.Safety

theorem attentionNow_of {t s : State} {h : HostId} {m : Mask} {held : Option Response} (mask : (t.port h).mask = m)
    (holds : (t.port h).held = held) (kept : BlocksKept s t) :
    attentionNow t h = attention m held.isSome (!(s.evq h).events.isEmpty) (s.store h).latch := by
  obtain ⟨-, -, ws, evu, -⟩ := kept
  rw [attentionNow, mask, holds, evq_of_evu evu, State.store, ws, ← State.store]

theorem attachStep_opens {s : State} {h : HostId} {r : Request} (asked : Asked s h .attach r) (empty : r.payload = [])
    (detached : (s.port h).state = .detached) :
    attachStep h s = some (answer h .ok [(s.port h).session + 1#8] (s.onPort h fun p =>
      { p with session := (s.port h).session + 1#8, state := .attached, mask := ⟨true, true, false⟩ })) := by
  simp [attachStep, requestOf_some.mpr asked, empty, detached, portRefusal, Kind.passedDetached]

theorem detachStep_begins {s : State} {h : HostId} {r : Request} (asked : Asked s h .detach r) (empty : r.payload = [])
    (attached : (s.port h).state = .attached) (none : s.ws.fromFre.any (offersTo h) = false) :
    detachStep h s = some (s.onPort h fun p =>
      { p with state := .detaching, mask := ⟨false, false, false⟩, toReport := ⟨true, true, true, true⟩ }) := by
  simp [detachStep, requestOf_some.mpr asked, empty, attached, none]

/-- No slot end outstanding at the WS holds an offer to the host. -/
theorem offersTo_eq_false {s : State} {h : HostId}
    (none : ∀ os ∈ s.ws.fromFre, ∀ l, os = .offers l → ∀ o ∈ l, o.host ≠ h) :
    s.ws.fromFre.any (offersTo h) = false := by
  rw [← Bool.not_eq_true, offersTo_iff]
  rintro ⟨o, ⟨l, m, mo⟩, own⟩
  exact none _ m l rfl o mo own

/-- Settles O11. -/
theorem attachAndDetachMoveTheSession : Obligations.AttachAndDetachMoveTheSession := by
  intro s h r empty
  refine ⟨fun asked detached => ?_, fun asked attached noOffer => ?_⟩
  · obtain ⟨inProgress, kind⟩ := asked
    obtain ⟨t, next, port, others, blocks⟩ :=
      settle_answer_onPort (r := r) (attachStep_opens ⟨inProgress, kind⟩ empty detached) inProgress
    refine ⟨t, next, ?_, ?_, others, blocks⟩
    · rw [port, portView_setAtn]; simp [portView, kind, Kind.code]
    · rw [port]
      dsimp only
      rw [attentionNow_of (congrArg Port.mask port) (congrArg Port.held port) blocks]
      simp [attention]
  · obtain ⟨t, next, port, others, blocks⟩ :=
      settle_onPort (detachStep_begins asked empty attached (offersTo_eq_false noOffer))
    refine ⟨t, next, ?_, ?_, others, blocks⟩
    · rw [port, portView_setAtn]; rfl
    · rw [port]; simp [attentionNow, attention]

/-! ### SET_ATTENTION (R172) -/

/-- The mask byte sent back is the byte received without its reserved bits (Table 26). -/
theorem maskByte_eq (b : Byte) : maskByte ⟨b.getLsbD 5, b.getLsbD 4, b.getLsbD 3⟩ = b &&& 0x38#8 := by
  apply BitVec.eq_of_getLsbD_eq
  intro i small
  simp only [maskByte, BitVec.getLsbD_or, BitVec.getLsbD_and, bitAt_getLsbD, small, Nat.reduceLT]
  interval_cases i <;> simp

theorem parseMask_eq_none {p : List Byte} (bad : p.length ≠ 1) : parseMask p = none := by
  match p with
  | [] => rfl
  | [_] => exact absurd rfl bad
  | _ :: _ :: _ => rfl

/-- Settles O12. -/
theorem setAttentionReplacesTheMask : Obligations.SetAttentionReplacesTheMask := by
  rintro s h r ⟨inProgress, kind⟩ attached
  have request := requestOf_some.mpr ⟨inProgress, kind⟩
  by_cases one : r.payload.length = 1
  · obtain ⟨b, payload⟩ := List.length_eq_one_iff.mp one
    have stepped : setAttentionStep h s = some (answer h .ok [b &&& 0x38#8]
        (s.onPort h fun p => { p with mask := ⟨b.getLsbD 5, b.getLsbD 4, b.getLsbD 3⟩ })) := by
      rw [← maskByte_eq]
      simp only [setAttentionStep, request, attached, ne_eq, not_true_eq_false, if_false, payload]
      rfl
    obtain ⟨t, next, port, others, blocks⟩ := settle_answer_onPort (r := r) stepped inProgress
    refine ⟨t, next, blocks, ?_, fun bad => absurd one bad⟩
    rintro _ same
    cases payload.symm.trans same
    refine ⟨?_, others, ?_⟩
    · rw [port, portView_setAtn]; simp [portView, kind, Kind.code]
    · rw [port]
      dsimp only
      rw [attentionNow_of (congrArg Port.mask port) (congrArg Port.held port) blocks]
      simp [attention]
  · have stepped : setAttentionStep h s = some (answer h .badArgument [] s) := by
      simp [setAttentionStep, request, attached, parseMask_eq_none one]
    obtain ⟨t, next, replied, blocks⟩ := settle_answer_kept stepped (portsKept_refl s) inProgress (blocksKept_refl s)
    exact ⟨t, next, blocks, fun b same => absurd (by rw [same]; rfl) one, fun _ => replied⟩

end Sys2Proof.Machine
end

section
/-! O60: NEXT_EVENTS (R155). -/

namespace Sys2Proof.Machine
open Sys2Proof.Safety

theorem toNat_eq_zero_of {b : Byte} (zero : b = 0x00#8) : b.toNat = 0 := by rw [zero]; rfl

theorem parseMaximum_eq_some {top : Nat} {p : List Byte} {b : Byte} (one : p = [b]) (low : 1 ≤ b.toNat)
    (high : b.toNat ≤ top) : parseMaximum top p = some b.toNat := by
  simp [parseMaximum, one, oneByte, low, high]

theorem parseMaximum_eq_none {top : Nat} {p : List Byte} (bad : ∀ b, p = [b] → b = 0x00#8 ∨ top < b.toNat) :
    parseMaximum top p = none := by
  match p with
  | [] => rfl
  | [b] =>
    have out : ¬(1 ≤ b.toNat ∧ b.toNat ≤ top) := by
      rcases bad b rfl with zero | above
      · rw [toNat_eq_zero_of zero]; omega
      · omega
    simp only [parseMaximum, oneByte, out, if_false]
  | _ :: _ :: _ => rfl

/-- Settles O60. -/
theorem nextEventsTakesTheOldestEvents : Obligations.NextEventsTakesTheOldestEvents := by
  rintro s h r ⟨inProgress, kind⟩
  have request := requestOf_some.mpr ⟨inProgress, kind⟩
  refine ⟨fun bad => ?_, fun b payload low high => ?_⟩
  · have stepped : nextEventsStep h s = some (answer h .badArgument [] s) := by
      simp [nextEventsStep, request, parseMaximum_eq_none (top := Config.maxNextEvents) bad]
    exact settle_answer_kept stepped (portsKept_refl s) inProgress (blocksKept_refl s)
  · have stepped : nextEventsStep h s = some (answer h .ok
        (eventsPayload ((s.evq h).events.drop b.toNat).length (s.evq h).lost ((s.evq h).events.take b.toNat))
        (s.onEvq h fun _ => ⟨(s.evq h).events.drop b.toNat, false⟩)) := by
      simp [nextEventsStep, request, parseMaximum_eq_some (top := Config.maxNextEvents) payload low high]
    obtain ⟨t, next, replied, same⟩ := settle_answer (s := s) stepped (portsKept_of_ports rfl) inProgress
    refine ⟨t, next, ?_, ?_, fun g n => ?_, fun src => ?_, same.rsc, same.fre, same.ws, same.pending⟩
    · refine Eq.mpr (congrArg (Replied s t h r .ok) ?_) replied
      rw [eventsPayload, List.length_drop, List.length_take]
      refine congrArg _ (List.flatMap_congr fun e _ => ?_)
      rcases e with ⟨body, frame⟩
      rcases body with ⟨_, _⟩ | ⟨_, _, _ | _⟩ | ⟨_, _ | _⟩ | _ | _ | _ <;> rfl
    · rw [same.evq, State.onEvq_evq_self]
    · rw [same.evq, State.onEvq_evq_ne s _ n]
    · rw [same.evu]; cases src <;> rfl

end Sys2Proof.Machine
end

section
/-! O47, O48, O51, O52: SET_QUOTA, QUERY_HOST, READ_WORDS, CLEAR_OVERFLOW (R112 to R115, R142 to R145). -/

namespace Sys2Proof.Machine
open Sys2Proof.Safety

/-! ### The WS after a change to one host's part -/

theorem Quad.set_set {α : Type} (q : Quad α) (h : HostId) (a b : α) : (q.set h a).set h b = q.set h b := by
  cases h <;> rfl

theorem onStore_ws (s : State) (h : HostId) (f : WsHost → WsHost) :
    (s.onStore h f).ws = { s.ws with hosts := s.ws.hosts.set h (f (s.store h)) } := rfl

/-- A change to a host's part is what it makes of the part that stands there. -/
theorem onStore_congr {s : State} {h : HostId} {f g : WsHost → WsHost} (same : f (s.store h) = g (s.store h)) :
    s.onStore h f = s.onStore h g := by
  have same' : f (s.ws.hosts.get h) = g (s.ws.hosts.get h) := same
  simp only [State.onStore, same']

theorem onStore_id {s : State} {h : HostId} {f : WsHost → WsHost} (same : f (s.store h) = s.store h) :
    s.onStore h f = s := by
  have same' : f (s.ws.hosts.get h) = s.ws.hosts.get h := same
  simp only [State.onStore, same', Quad.set_get]

theorem giveBack_ws (h : HostId) (n : Nat) (s : State) :
    (giveBack h n s).ws =
      { s.ws with
        free := s.ws.free + n, hosts := s.ws.hosts.set h { s.store h with held := (s.store h).held - n } } := rfl

/-! ### Two bytes and a 16-bit field (R176) -/

theorem half_be16 (v : Half) : half (v.extractLsb' 8 8) (v.extractLsb' 0 8) = v := by
  apply BitVec.eq_of_getLsbD_eq
  intro i small
  simp only [half, BitVec.getLsbD_append, BitVec.getLsbD_extractLsb']
  by_cases low : i < 8
  · simp [low]
  · simp [low, show i - 8 < 8 by omega, show 8 + (i - 8) = i by omega]

theorem be16_half (a b : Byte) : be16 (half a b) = [a, b] := by
  have high : (half a b).extractLsb' 8 8 = a := by
    apply BitVec.eq_of_getLsbD_eq
    intro i small
    simp only [half, BitVec.getLsbD_extractLsb', BitVec.getLsbD_append, small, decide_true, Bool.true_and]
    simp
  have low : (half a b).extractLsb' 0 8 = b := by
    apply BitVec.eq_of_getLsbD_eq
    intro i small
    simp only [half, BitVec.getLsbD_extractLsb', BitVec.getLsbD_append, small, decide_true, Bool.true_and]
    simp [small]
  rw [be16, high, low]

theorem be16_inj {v w : Half} (same : be16 v = be16 w) : v = w := by
  obtain ⟨high, low, -⟩ : _ = _ ∧ _ = _ ∧ True := by simpa [be16] using same
  rw [← half_be16 v, ← half_be16 w, high, low]

/-! ### CLEAR_OVERFLOW (R142) -/

theorem clearOverflowStep_taken {s : State} {h : HostId} {r : Request} (asked : Asked s h .clearOverflow r)
    (may : mayTake s .ws h = true) :
    clearOverflowStep h s = some (answer h .ok (yesNo (s.store h).latch :: be16 (s.store h).drops)
      ((markServed .ws h s).onStore h fun c => { c with latch := false, resume := c.resume || c.latch })) := by
  unfold clearOverflowStep
  rw [takeFair_some.mpr ⟨asked, may, rfl⟩]
  dsimp only
  cases latch : (s.store h).latch with
  | true =>
    rw [if_pos rfl]
    refine congrArg (fun v => some (answer h .ok _ v)) (onStore_congr ?_)
    simp only [markServed_store, latch, Bool.or_true]
  | false =>
    rw [if_neg Bool.false_ne_true]
    refine congrArg (fun v => some (answer h .ok _ v)) (onStore_id ?_).symm
    rw [markServed_store, latch, Bool.or_false, ← latch]

/-- Settles O52: both cases are one change to the caller's part. -/
theorem clearOverflowSetsResumePending : Obligations.ClearOverflowSetsResumePending := by
  intro s h r asked may
  obtain ⟨t, next, replied, same⟩ := settle_answer (s := s) (clearOverflowStep_taken asked may)
    (portsKept_of_markServed rfl) asked.1
  exact ⟨t, next, replied, same.ws, same.rsc, same.fre, same.evu, same.pending⟩

/-! ### READ_WORDS (R144) -/

theorem recordFlags_eq (self fill gap : Bool) :
    recordFlags self fill gap =
      (if self then 0x01#8 else 0x00#8) ||| (if fill then 0x02#8 else 0x00#8) ||| (if gap then 0x04#8 else 0x00#8) := by
  cases self <;> cases fill <;> cases gap <;> rfl

theorem readWordsStep_taken {s : State} {h : HostId} {r : Request} {m : Nat} (asked : Asked s h .readWords r)
    (may : mayTake s .ws h = true) (maximum : parseMaximum Config.maxReadRecords r.payload = some m) :
    readWordsStep h s = some (answer h .ok
      (readPayload ((s.store h).rxq.drop m).length (s.store h).latch ((s.store h).rxq.take m))
      (giveBack h ((s.store h).rxq.take m).length
        ((markServed .ws h s).onStore h fun c => { c with rxq := (s.store h).rxq.drop m }))) := by
  unfold readWordsStep
  rw [takeFair_some.mpr ⟨asked, may, rfl⟩]
  simp only [maximum]
  rfl

/-- Settles O51. -/
theorem readWordsTakesTheOldestRecords : Obligations.ReadWordsTakesTheOldestRecords := by
  intro s h r asked may
  refine ⟨fun bad => ?_, fun b payload low high => ?_⟩
  · have stepped : readWordsStep h s = some (answer h .badArgument [] (markServed .ws h s)) := by
      unfold readWordsStep
      rw [takeFair_some.mpr ⟨asked, may, rfl⟩]
      simp only [parseMaximum_eq_none (top := Config.maxReadRecords) bad]
      rfl
    exact settle_answer_kept stepped (markServed_portsKept _ h s) asked.1 (blocksKept_markServed ..)
  · have maximum := parseMaximum_eq_some (top := Config.maxReadRecords) payload low high
    obtain ⟨t, next, replied, same⟩ := settle_answer (s := s) (readWordsStep_taken asked may maximum)
      (portsKept_of_markServed rfl) asked.1
    refine ⟨t, next, ?_, ?_, same.rsc, same.fre, same.evu, same.pending⟩
    · refine Eq.mpr (congrArg (Replied s t h r .ok) ?_) replied
      rw [readPayload, List.length_drop, List.length_take]
      refine congrArg _ (List.flatMap_congr fun q _ => ?_)
      rw [RxRecord.encode, recordFlags_eq]
      rfl
    · rw [same.ws, giveBack_ws, onStore_ws, State.onStore_store_self, Quad.set_set, List.length_take]
      rfl

/-! ### SET_QUOTA (R112) -/

theorem parseQuota_be16 (v : Half) : parseQuota (be16 v) = if v.toNat ≤ 1024 then some v.toNat else none := by
  have both := half_be16 v
  simp only [parseQuota, be16, both]
  rfl

theorem parseQuota_length {p : List Byte} (bad : p.length ≠ 2) : parseQuota p = none := by
  match p with
  | [] => rfl
  | [_] => rfl
  | [_, _] => exact absurd rfl bad
  | _ :: _ :: _ :: _ => rfl

theorem eq_be16_of_length {p : List Byte} (two : p.length = 2) : ∃ v : Half, p = be16 v := by
  obtain ⟨a, b, rfl⟩ := List.length_eq_two.mp two
  exact ⟨half a b, (be16_half a b).symm⟩

section
variable {s : State} {h : HostId} {r : Request} (asked : Asked s h .setQuota r) (may : mayTake s .ws h = true)
include asked may

theorem setQuotaStep_bad (bad : parseQuota r.payload = none) :
    setQuotaStep h s = some (answer h .badArgument [] (markServed .ws h s)) := by
  unfold setQuotaStep
  rw [takeFair_some.mpr ⟨asked, may, rfl⟩]
  simp only [bad]
  rfl

/-- A quota below the held count, or an increase above the pool, is refused (R112). -/
theorem setQuotaStep_refused {q : Nat} (read : parseQuota r.payload = some q)
    (exceeds : q < (s.store h).held ∨ (s.store h).quota < q ∧ pool s.ws < q - (s.store h).quota) :
    setQuotaStep h s = some (answer h .quota (quotaPayload s h) (markServed .ws h s)) := by
  unfold setQuotaStep
  rw [takeFair_some.mpr ⟨asked, may, rfl⟩]
  simp only [read]
  split
  · rfl
  · rename_i enough
    rw [if_pos (exceeds.resolve_left enough)]
    rfl

theorem setQuotaStep_set {q : Nat} (read : parseQuota r.payload = some q)
    (fits : ¬(q < (s.store h).held ∨ (s.store h).quota < q ∧ pool s.ws < q - (s.store h).quota)) :
    setQuotaStep h s = some (answer h .ok
      (quotaPayload ((markServed .ws h s).onStore h fun c => { c with quota := q }) h)
      ((markServed .ws h s).onStore h fun c => { c with quota := q })) := by
  obtain ⟨enough, room⟩ := not_or.mp fits
  unfold setQuotaStep
  rw [takeFair_some.mpr ⟨asked, may, rfl⟩]
  simp only [read]
  rw [if_neg enough, if_neg room]
  rfl

end

theorem quotaPayload_of_ws {s t : State} (h : HostId) (same : t.ws = s.ws) : quotaPayload t h = quotaPayload s h := by
  simp only [quotaPayload, State.store, same]

/-- Settles O47: the checks in turn, each naming its answer. -/
theorem setQuotaIsCheckedAgainstHeldCountAndPool : Obligations.SetQuotaIsCheckedAgainstHeldCountAndPool := by
  intro s h r asked may
  by_cases readable : ∃ v : Half, r.payload = be16 v ∧ v.toNat ≤ 1024
  · obtain ⟨v, payload, small⟩ := readable
    have read : parseQuota r.payload = some v.toNat := by rw [payload, parseQuota_be16, if_pos small]
    by_cases exceeds : v.toNat < (s.store h).held ∨
        (s.store h).quota < v.toNat ∧ pool s.ws < v.toNat - (s.store h).quota
    · obtain ⟨t, next, replied, same⟩ := settle_answer (s := s) (setQuotaStep_refused asked may read exceeds)
        (markServed_portsKept _ h s) asked.1
      refine ⟨t, _, _, next, replied, same.rsc, same.fre, same.evu, same.pending,
        fun bad => absurd (by rw [payload]; rfl) bad, fun w again => ?_⟩
      cases be16_inj (payload.symm.trans again)
      refine ⟨fun big => absurd small (by omega), fun _ => ⟨(quotaPayload_of_ws h same.ws).symm, ?_⟩⟩
      rw [pool_eq, Config.cells] at exceeds
      rw [if_pos exceeds]
      exact ⟨rfl, same.ws⟩
    · obtain ⟨t, next, replied, same⟩ := settle_answer (s := s) (setQuotaStep_set asked may read exceeds)
        (portsKept_of_markServed rfl) asked.1
      refine ⟨t, _, _, next, replied, same.rsc, same.fre, same.evu, same.pending,
        fun bad => absurd (by rw [payload]; rfl) bad, fun w again => ?_⟩
      cases be16_inj (payload.symm.trans again)
      refine ⟨fun big => absurd small (by omega), fun _ => ⟨(quotaPayload_of_ws h same.ws).symm, ?_⟩⟩
      rw [pool_eq, Config.cells] at exceeds
      rw [if_neg exceeds]
      exact ⟨rfl, same.ws⟩
  · have unreadable : parseQuota r.payload = none := by
      by_cases two : r.payload.length = 2
      · obtain ⟨v, payload⟩ := eq_be16_of_length two
        rw [payload, parseQuota_be16, if_neg fun small => readable ⟨v, payload, small⟩]
      · exact parseQuota_length two
    obtain ⟨t, next, replied, same⟩ := settle_answer (s := s) (setQuotaStep_bad asked may unreadable)
      (markServed_portsKept _ h s) asked.1
    exact ⟨t, _, _, next, replied, same.rsc, same.fre, same.evu, same.pending, fun _ => ⟨rfl, rfl, same.ws⟩,
      fun v payload => ⟨fun _ => ⟨rfl, rfl, same.ws⟩, fun small => absurd ⟨v, payload, small⟩ readable⟩⟩

end Sys2Proof.Machine
end

section
/-! O48: QUERY_HOST (R114, R115). -/

namespace Sys2Proof.Machine
open Sys2Proof.Safety

theorem hostOfByte_hostCode (g : HostId) : hostOfByte (hostCode g) = some g := by cases g <;> rfl

theorem hostCode_of_hostOfByte {b : Byte} {g : HostId} (e : hostOfByte b = some g) : b = hostCode g := by
  unfold hostOfByte at e
  split at e
  · cases e; assumption
  · split at e
    · cases e; assumption
    · split at e
      · cases e; assumption
      · split at e
        · cases e; assumption
        · cases e

theorem parseHost_eq_some {p : List Byte} {g : HostId} : parseHost p = some g ↔ p = [hostCode g] := by
  constructor
  · match p with
    | [] => exact nofun
    | [b] => exact fun e => by rw [hostCode_of_hostOfByte e]
    | _ :: _ :: _ => exact nofun
  · rintro rfl
    exact hostOfByte_hostCode g

theorem hostCode_mem (g : HostId) : [hostCode g] ∈ [[0x00#8], [0x01#8], [0x02#8], [0x03#8]] := by
  cases g <;> simp [hostCode]

theorem parseHost_eq_none {p : List Byte} (bad : p ∉ [[0x00#8], [0x01#8], [0x02#8], [0x03#8]]) :
    parseHost p = none := by
  cases e : parseHost p with
  | none => rfl
  | some g => exact absurd (parseHost_eq_some.mp e ▸ hostCode_mem g) bad

theorem hostFlags_eq (latch resume : Bool) :
    hostFlags latch resume = (if latch then 0x01#8 else 0x00#8) ||| (if resume then 0x02#8 else 0x00#8) := by
  cases latch <;> cases resume <;> rfl

/-- A request that keeps a report stays in progress with it. -/
theorem keepReport_port {s : State} {h : HostId} {r : Request} (p : HostReport)
    (asked : (s.port h).inProgress = some r) :
    portView ((keepReport h p s).port h) =
      { portView (s.port h) with inProgress := some { r with passed := [], report := p } } := by
  simp [keepReport, portView, asked]

section
variable {s : State} {h g : HostId} {r : Request} (asked : Asked s h .queryHost r)
include asked

theorem queryHostStep_bad {parts : QueryParts} (may : mayTake s .ws h = true) (bad : parseHost r.payload = none) :
    queryHostStep h parts s = some (answer h .badArgument [] (markServed .ws h s)) := by
  simp [queryHostStep, requestOf_some.mpr asked, bad, may]

theorem queryHostStep_readWs (may : mayTake s .ws h = true) (read : parseHost r.payload = some g)
    (new : r.report = HostReport.empty) :
    queryHostStep h ⟨true, false, false, false⟩ s =
      some (keepReport h ⟨some (wsReport s g), none, none, none⟩ (markServed .ws h s)) := by
  simp [queryHostStep, requestOf_some.mpr asked, read, new, may, readParts, HostReport.empty]

theorem queryHostStep_vote {w : WsReport} {c : RscReport} {p : PortState} (read : parseHost r.payload = some g)
    (three : r.report = ⟨some w, some c, none, some p⟩) :
    queryHostStep h ⟨false, false, true, false⟩ s =
      some (answer h .ok (hostPayload w c (s.fre.votes.get g) p) s) := by
  simp [queryHostStep, requestOf_some.mpr asked, read, three, readParts]

theorem queryHostStep_all (may : mayTake s .ws h = true) (free : rscFree s = true)
    (read : parseHost r.payload = some g) (new : r.report = HostReport.empty) :
    queryHostStep h ⟨true, true, true, true⟩ s =
      some (answer h .ok (hostPayload (wsReport s g) (rscReport s g) (s.fre.votes.get g) (s.port g).state)
        (markServed .ws h s)) := by
  simp [queryHostStep, requestOf_some.mpr asked, read, new, may, free, readParts, HostReport.empty]

end

/-- Settles O48: one lemma per way of reading. -/
theorem queryHostReportsTheHost : Obligations.QueryHostReportsTheHost := by
  intro s h r parts asked may
  refine ⟨fun bad => ?_, ?_, ?_, ?_⟩
  · exact settle_answer_kept (queryHostStep_bad asked may (parseHost_eq_none bad)) (markServed_portsKept _ h s)
      asked.1 (blocksKept_markServed ..)
  · rintro g payload rfl new
    have stepped := queryHostStep_readWs asked may (parseHost_eq_some.mpr payload) new
    have served : ((markServed .ws h s).port h).inProgress = some r := by rw [markServed_self]; exact asked.1
    refine ⟨_, settle_some stepped, ⟨rfl, rfl, rfl, rfl, rfl⟩, fun q n => ?_, ?_⟩
    · rw [portView_refreshAtn, keepReport, State.onPort_port_ne _ _ n, markServed_view]
    · rw [portView_refreshAtn, keepReport_port _ served, markServed_view]
  · rintro g w c p payload rfl three
    obtain ⟨t, next, replied, kept⟩ := settle_answer_kept
      (queryHostStep_vote asked (parseHost_eq_some.mpr payload) three) (portsKept_refl s) asked.1 (blocksKept_refl s)
    exact ⟨t, next, kept, replied⟩
  · rintro g payload rfl new free
    obtain ⟨t, next, replied, kept⟩ := settle_answer_kept
      (queryHostStep_all asked may free (parseHost_eq_some.mpr payload) new) (markServed_portsKept _ h s) asked.1
      (blocksKept_markServed ..)
    refine ⟨t, next, kept, Eq.mpr (congrArg (Replied s t h r .ok) ?_) replied⟩
    rw [hostPayload, hostFlags_eq, wsReport, pool_eq]
    rfl

end Sys2Proof.Machine
end

section
/-! O49, O50: WRITE_WORDS (R119 to R122). -/

namespace Sys2Proof.Machine
open Sys2Proof.Safety

/-! ### The record a key names (R13) -/

theorem eq_of_countP_le_one {α : Type} {p : α → Bool} {l : List α} (one : l.countP p ≤ 1) {a b : α} (ma : a ∈ l)
    (pa : p a = true) (mb : b ∈ l) (pb : p b = true) : a = b := by
  induction l with
  | nil => cases ma
  | cons x xs ih =>
    have none_left : p x = true → ∀ y ∈ xs, p y = false := fun px y m => by
      rw [List.countP_cons, if_pos px] at one
      have zero : xs.countP p = 0 := by omega
      simpa using List.countP_eq_zero.mp zero y m
    rcases List.mem_cons.mp ma with rfl | ma'
    · rcases List.mem_cons.mp mb with rfl | mb'
      · rfl
      · rw [none_left pa b mb'] at pb; cases pb
    · rcases List.mem_cons.mp mb with rfl | mb'
      · rw [none_left pb a ma'] at pa; cases pa
      · exact ih (Nat.le_trans (by rw [List.countP_cons]; omega) one) ma' mb'

theorem hasKey_iff {r : ClaimRec} {h : HostId} {slot : Nat} {role : Role} :
    r.hasKey h slot role = true ↔ r.host = h ∧ r.slot = slot ∧ r.role = role := decide_eq_true_iff

/-- Under the key law a record in the forward view is the one its key names. -/
theorem keyForward_eq_some {rs : List ClaimRec} {h : HostId} {slot : Nat} {role : Role} {c : ClaimRec}
    (law : KeyLaw rs) (m : c ∈ rs) (key : c.hasKey h slot role = true) (forward : c.forward = true) :
    keyForward rs h slot role = some c := by
  have meets : (c.hasKey h slot role && c.forward) = true := by rw [key, forward]; rfl
  cases found : keyForward rs h slot role with
  | none => exact absurd meets (List.find?_eq_none.mp found c m)
  | some q =>
    exact congrArg some (eq_of_countP_le_one (law h slot role).1 (List.mem_of_find?_eq_some found)
      (List.find?_some (p := fun r : ClaimRec => r.hasKey h slot role && r.forward) found) m meets)

theorem keyForward_eq_none {rs : List ClaimRec} {h : HostId} {slot : Nat} {role : Role} :
    keyForward rs h slot role = none ↔
      ∀ q ∈ rs, q.host = h → q.slot = slot → q.role = role → q.forward = false := by
  simp [keyForward, List.find?_eq_none, ClaimRec.hasKey]

/-- A record of the key with none of the key in the forward view stands in PENDING_RELEASE. -/
theorem keyLeaving_eq {rs : List ClaimRec} {h : HostId} {slot : Nat} {role : Role}
    (none : ∀ q ∈ rs, q.host = h → q.slot = slot → q.role = role → q.forward = false) :
    keyLeaving rs h slot role = decide (∃ q ∈ rs, q.host = h ∧ q.slot = slot ∧ q.role = role) := by
  rw [Bool.eq_iff_iff, decide_eq_true_iff, keyLeaving, List.any_eq_true]
  simp only [Bool.and_eq_true, hasKey_iff, Bool.not_eq_true']
  exact ⟨fun ⟨q, m, key, _⟩ => ⟨q, m, key⟩, fun ⟨q, m, host, slot, role⟩ =>
    ⟨q, m, ⟨host, slot, role⟩, none q m host slot role⟩⟩

/-! ### The entries of a queue changed in place -/

/-- Changing the entries of a record's queue changes what `entriesOf` reads, where the queue stands. -/
theorem entriesOf_changeFirst_self {qs : List TxQueue} {id : Nat} {h : HostId} (f : List TxEntry → List TxEntry)
    (stands : ∃ q ∈ qs, q.id = id ∧ q.owner = h) :
    entriesOf (changeFirst (TxQueue.isOf id h) (fun q => { q with entries := f q.entries }) qs) id h =
      f (entriesOf qs id h) := by
  obtain ⟨q, m, own⟩ := stands
  cases found : qs.find? (TxQueue.isOf id h) with
  | none => exact absurd (decide_eq_true own) (List.find?_eq_none.mp found q m)
  | some x =>
    obtain ⟨a, b, rfl, yes, no⟩ := exists_first found
    rw [changeFirst_append no yes, entriesOf_append no yes, entriesOf_append no (by exact yes)]

/-! ### The accepted write (R121) -/

/-- What an accepted write makes of a talker's record. -/
theorem written_talk {c : ClaimRec} {p : TalkPart} (body : c.body = .talk p) :
    c.written =
      { c with
        body := .talk { p with reported := false }
        remaining := if p.autoRenew = true ∧ c.state = .active ∧ c.lease ≠ 0#16
          then some c.lease else c.remaining } := by
  cases auto : p.autoRenew with
  | false => simp [ClaimRec.written, body, auto]
  | true =>
    by_cases leased : c.state = .active ∧ c.lease ≠ 0#16
    · simp [ClaimRec.written, body, auto, ClaimRec.renewed, leased]
    · simp [ClaimRec.written, body, auto, ClaimRec.renewed, leased]

theorem isTalk_of_body {c : ClaimRec} {p : TalkPart} (body : c.body = .talk p) : c.role = .talk := by
  simp [ClaimRec.role, body]

/-- What identifies the record a write goes dest: the caller's TALK record of the slot in the forward view. -/
structure WritesTo (s : State) (h : HostId) (slot : Nat) (c : ClaimRec) (p : TalkPart) : Prop where
  law     : StoreLaw s
  mem     : c ∈ s.rsc.records
  host    : c.host = h
  slot    : c.slot = slot
  body    : c.body = .talk p
  forward : c.forward = true

section
variable {s : State} {h : HostId} {slot : Nat} {c : ClaimRec} {p : TalkPart} {es : List TxEntry}
  (dest : WritesTo s h slot c p)
include dest

theorem WritesTo.found : keyForward s.rsc.records h slot .talk = some c :=
  keyForward_eq_some dest.law.store.key dest.mem (hasKey_iff.mpr ⟨dest.host, dest.slot, isTalk_of_body dest.body⟩) dest.forward

theorem writeTo_full (full : p.depth < (entriesOf s.ws.queues c.id h).length + es.length) :
    writeTo h slot es s =
      answer h .queueFull [nat8 (roomFor s h p.depth (entriesOf s.ws.queues c.id h).length)] s := by
  simp only [writeTo, dest.found, dest.body, dest.host, full, if_true]

theorem writeTo_noCells (room : (entriesOf s.ws.queues c.id h).length + es.length ≤ p.depth)
    (none : (s.store h).quota < (s.store h).held + es.length) :
    writeTo h slot es s =
      answer h .noCells [nat8 (roomFor s h p.depth (entriesOf s.ws.queues c.id h).length)] s := by
  simp only [writeTo, dest.found, dest.body, dest.host, Nat.not_lt.mpr room, none, if_true, if_false]

/-- The state a write leaves, before its answer. -/
def writtenState (h : HostId) (c : ClaimRec) (es : List TxEntry) (s : State) : State :=
  charge h es.length
    ((s.onRsc fun x => { x with records := updateRec c.id ClaimRec.written x.records }).onQueues
      (changeFirst (TxQueue.isOf c.id h) fun q => { q with entries := q.entries ++ es }))

theorem writeTo_accepted (stands : ∃ q ∈ s.ws.queues, q.id = c.id ∧ q.owner = h)
    (room : (entriesOf s.ws.queues c.id h).length + es.length ≤ p.depth)
    (cells : (s.store h).held + es.length ≤ (s.store h).quota) :
    writeTo h slot es s =
      answer h .ok
        [nat8 ((entriesOf s.ws.queues c.id h).length + es.length),
          nat8 (min (p.depth - ((entriesOf s.ws.queues c.id h).length + es.length))
            ((s.store h).quota - ((s.store h).held + es.length)))]
        (writtenState h c es s) := by
  have appended : appendEntries c.id h es
      (s.onRsc fun x => { x with records := updateRec c.id ClaimRec.written x.records }) = writtenState h c es s :=
    appendEntries_eq stands
  have roomLeft (n : Nat) : roomFor (writtenState h c es s) h p.depth n =
      min (p.depth - n) ((s.store h).quota - ((s.store h).held + es.length)) := by
    rw [roomFor, writtenState, charge_store_self]
    rfl
  simp only [writeTo, dest.found, dest.body, dest.host, Nat.not_lt.mpr room, Nat.not_lt.mpr cells, if_false, appended,
    roomLeft]

/-- The record is the only one of its identity. -/
theorem WritesTo.records :
    updateRec c.id ClaimRec.written s.rsc.records =
      s.rsc.records.map fun q =>
        if q.id = c.id then
          { c with
            body := .talk { p with reported := false }
            remaining := if p.autoRenew = true ∧ c.state = .active ∧ c.lease ≠ 0#16
              then some c.lease else c.remaining }
        else q := by
  refine List.map_congr_left fun q m => ?_
  split
  · rename_i same
    rw [record_eq_of_id dest.law.store m dest.mem same, written_talk dest.body]
  · rfl

end

/-- The action on a WRITE_WORDS taken (R120). -/
def writeFor (h : HostId) (r : Request) (t : State) : State :=
  match parseWrite r.payload with
  | none => answer h .badArgument [] t
  | some (slot, es) => writeTo h slot es t

theorem writeFor_unreadable {h : HostId} {r : Request} (t : State) (bad : parseWrite r.payload = none) :
    writeFor h r t = answer h .badArgument [] t := by simp only [writeFor, bad]

theorem writeFor_read {h : HostId} {r : Request} {slot : Nat} {es : List TxEntry} (t : State)
    (read : parseWrite r.payload = some (slot, es)) : writeFor h r t = writeTo h slot es t := by
  simp only [writeFor, read]

theorem writeWordsStep_taken {s : State} {h : HostId} {r : Request} (asked : Asked s h .writeWords r)
    (may : mayTake s .ws h = true) (free : rscFree s = true) :
    writeWordsStep h s = some (writeFor h r (markServed .ws h s)) := by
  unfold writeWordsStep writeFor
  rw [if_pos free, takeFair_some.mpr ⟨asked, may, rfl⟩]
  dsimp only
  cases parseWrite r.payload <;> rfl

/-- The requests that have seen the write wait as before: the store and the queues are those of s. -/
theorem WritesTo.served {s : State} {h : HostId} {slot : Nat} {c : ClaimRec} {p : TalkPart}
    (dest : WritesTo s h slot c p) : WritesTo (markServed .ws h s) h slot c p :=
  ⟨⟨dest.law.store, dest.law.worked, dest.law.proc, dest.law.one⟩, dest.mem, dest.host, dest.slot, dest.body, dest.forward⟩

/-- Settles O49. -/
theorem writeWordsQueuesItsEntries : Obligations.WriteWordsQueuesItsEntries := by
  rintro s h r slot es c p old law asked may free read m host slot_ body forward stands rfl room cells
  have dest : WritesTo s h slot c p := ⟨law, m, host, slot_, body, forward⟩
  have stepped := writeWordsStep_taken asked may free
  rw [writeFor_read _ read, writeTo_accepted dest.served stands room cells] at stepped
  obtain ⟨t, next, replied, same⟩ := settle_answer (s := s) stepped (portsKept_of_markServed rfl) asked.1
  have queues : t.ws.queues =
      changeFirst (TxQueue.isOf c.id h) (fun q => { q with entries := q.entries ++ es }) s.ws.queues := by
    rw [same.ws]; rfl
  refine ⟨t, next, replied, ?_, fun id g other => ?_, ?_, ?_, same.fre, same.evu, same.pending⟩
  · rw [queues, entriesOf_changeFirst_self (· ++ es) stands]
  · rw [queues, entriesOf_changeFirst_ne (f := fun q => { q with entries := q.entries ++ es }) (fun _ => ⟨rfl, rfl⟩) other]
  · rw [queues, same.ws]; rfl
  · rw [same.rsc, ← dest.records]; rfl

/-- Settles O50: the checks in turn. -/
theorem writeWordsIsRefusedByItsFirstFailingCheck : Obligations.WriteWordsIsRefusedByItsFirstFailingCheck := by
  intro s h r law asked may free
  have stepped := writeWordsStep_taken asked may free
  have refused {res : Result} {payload : List Byte}
      (e : writeWordsStep h s = some (answer h res payload (markServed .ws h s))) :
      ∃ t, exec (.writeWords h) s = .next t ∧ Replied s t h r res payload ∧ BlocksKept s t :=
    settle_answer_kept e (markServed_portsKept _ h s) asked.1 (blocksKept_markServed ..)
  refine ⟨fun bad => refused (by rw [stepped, writeFor_unreadable _ bad]), fun slot es read => ⟨fun none => ?_, ?_⟩⟩
  · have noKey : keyForward s.rsc.records h slot .talk = Option.none := keyForward_eq_none.mpr none
    have leaving_ := keyLeaving_eq none
    constructor
    · intro stands
      refine refused ?_
      rw [stepped, writeFor_read _ read]
      simp only [writeTo, markServed_rsc, noKey, leaving_, decide_eq_true stands, if_true]
    · intro absent
      have gone : ¬∃ q ∈ s.rsc.records, q.host = h ∧ q.slot = slot ∧ q.role = .talk :=
        fun ⟨q, m, key⟩ => absent q m key
      refine refused ?_
      rw [stepped, writeFor_read _ read]
      simp only [writeTo, markServed_rsc, noKey, leaving_, gone, decide_false, Bool.false_eq_true, if_false]
  · rintro c p old room m host slot_ body forward rfl rfl
    have dest : WritesTo s h slot c p := ⟨law, m, host, slot_, body, forward⟩
    refine ⟨fun full => refused ?_, fun fits none => refused ?_⟩
    · rw [stepped, writeFor_read _ read]
      exact congrArg some (writeTo_full dest.served full)
    · rw [stepped, writeFor_read _ read]
      exact congrArg some (writeTo_noCells dest.served fits none)

end Sys2Proof.Machine
end

section
/-! O54, O55, O57, O24: notices, flushes and endings, session ends (R105 to R111, R143, R157, R11). -/

namespace Sys2Proof.Machine
open Sys2Proof.Safety

/-- A step that reports to port h in a state whose ports are as before: the report, and that state's blocks. -/
theorem settle_report {s v : State} {o : Option State} {h : HostId} {clear : Owners → Owners}
    (e : o = some (report h clear v)) (ports : v.ports = s.ports) :
    ∃ t, settle s o = .next t ∧ Reported s t h (clear (s.port h).toReport) ∧ SameBlocks v t :=
  ⟨_, settle_some e, reported_of_report clear fun g => by rw [State.port, ports, State.port],
    by simp, by simp, by simp, by simp, by simp⟩

/-! ### Notices (R105, R143) -/

/-- Settles O54. -/
theorem noticesAtTheWordStore : Obligations.NoticesAtTheWordStore := by
  intro s rest
  refine ⟨fun hs front => ?_, fun front => ?_⟩
  · have stepped : lossNoticeStep s = some (({ s with ws := { s.ws with fromFre := rest } } : State).onStores
        fun h c => if h ∈ hs ∧ (s.port h).state = .attached then { c with gap := true } else c) := by
      simp only [lossNoticeStep, front]
    obtain ⟨t, next, ports, same⟩ := settle_kept (s := s) stepped (portsKept_of_ports rfl)
    refine ⟨t, next, ports, same.rsc, same.fre, same.evu, same.pending, by rw [same.ws]; rfl, fun g => ?_⟩
    rw [same.store, State.onStores_store]
    split
    · rename_i named
      simp [named, State.store]
    · rename_i not
      rw [← Bool.decide_and, decide_eq_false not, Bool.or_false]
      rfl
  · have stepped : wsBoundaryStep s = some (({ s with ws := { s.ws with fromFre := rest } } : State).onStores
        fun _ c => if c.resume then { c with resume := false, gap := true } else c) := by
      simp only [wsBoundaryStep, front]
    obtain ⟨t, next, ports, same⟩ := settle_kept (s := s) stepped (portsKept_of_ports rfl)
    refine ⟨t, next, ports, same.rsc, same.fre, same.evu, same.pending, by rw [same.ws]; rfl, fun g => ?_⟩
    rw [same.store, State.onStores_store]
    have store : ({ s with ws := { s.ws with fromFre := rest } } : State).store g = s.store g := rfl
    rw [store]
    cases resume : (s.store g).resume with
    | true => simp
    | false => rw [if_neg Bool.false_ne_true, Bool.or_false, ← resume]

/-! ### Flushes and endings (R107, R108) -/

theorem queueFlushStep_taken {s : State} {id : Nat} (ask : .flush id ∈ s.ws.asks) :
    queueFlushStep id s = some (flushQueue id (dropAsk (.flush id) s)) := if_pos ask

theorem queueEndingStep_taken {s : State} {id : Nat} (ask : .ending id ∈ s.ws.asks) :
    queueEndingStep id s = some (endQueue id (dropAsk (.ending id) s)) := if_pos ask

/-- Settles O55. -/
theorem flushAndEndingReturnTheCells : Obligations.FlushAndEndingReturnTheCells := by
  rintro s id a b q c ask (⟨rfl, rfl⟩ | ⟨rfl, rfl⟩) asked
  · refine ⟨fun queues own first => ?_, fun none => ?_⟩
    · have stepped := queueFlushStep_taken asked
      rw [flushQueue_eq (s := dropAsk (.flush id) s) queues own first] at stepped
      obtain ⟨t, next, ports, same⟩ := settle_kept (s := s) stepped (portsKept_of_ports rfl)
      refine ⟨t, next, ports, same.rsc, same.fre, same.evu, same.pending, ?_⟩
      rw [same.ws, giveBack_ws, if_pos rfl]
      rfl
    · have stepped := queueFlushStep_taken asked
      rw [flushQueue_ended (s := dropAsk (.flush id) s) none] at stepped
      obtain ⟨t, next, ports, same⟩ := settle_kept (s := s) stepped (portsKept_of_ports rfl)
      exact ⟨t, next, ports, same.rsc, same.fre, same.evu, same.pending, same.ws⟩
  · refine ⟨fun queues own first => ?_, fun none => ?_⟩
    · have stepped := queueEndingStep_taken asked
      rw [endQueue_eq (s := dropAsk (.ending id) s) queues own first] at stepped
      obtain ⟨t, next, ports, same⟩ := settle_kept (s := s) stepped (portsKept_of_ports rfl)
      refine ⟨t, next, ports, same.rsc, same.fre, same.evu, same.pending, ?_⟩
      rw [same.ws, giveBack_ws, if_neg nofun]
      rfl
    · have stepped := queueEndingStep_taken asked
      rw [endQueue_ended (s := dropAsk (.ending id) s) none] at stepped
      obtain ⟨t, next, ports, same⟩ := settle_kept (s := s) stepped (portsKept_of_ports rfl)
      exact ⟨t, next, ports, same.rsc, same.fre, same.evu, same.pending, same.ws⟩

/-! ### Session ends at the WS, the EVU and the RSC (R110, R157, R11) -/

/-- The WS's session end, before its report: what the host has stored goes, its cells come back. -/
def wsEnded (h : HostId) (s : State) : State :=
  giveBack h (storedFor s h) (((passOver h s).onQueues (flushOwner h)).onStore h fun c =>
    { c with rxq := [], latch := false, resume := false, gap := false })

theorem wsSessionEndStep_taken {s : State} {h : HostId} (due : (s.port h).toReport.ws = true) :
    wsSessionEndStep h s = some (report h (fun o => { o with ws := false }) (wsEnded h s)) := if_pos due

theorem wsEnded_ws (h : HostId) (s : State) :
    (wsEnded h s).ws =
      { s.ws with
        queues := flushOwner h s.ws.queues
        free := s.ws.free + storedFor s h
        fromFre := s.ws.fromFre.map (FreWork.passingOver h)
        hosts := s.ws.hosts.set h { s.store h with
          held := (s.store h).held - storedFor s h, rxq := [], latch := false, resume := false, gap := false } } := by
  rw [wsEnded, giveBack_ws, onStore_ws, State.onStore_store_self, Quad.set_set]
  rfl

/-- Settles O57. -/
theorem sessionEndsEmptyTheHostsQueues : Obligations.SessionEndsEmptyTheHostsQueues := by
  intro s h
  refine ⟨fun law due => ?_, fun due => ?_⟩
  · obtain ⟨t, next, reported, same⟩ := settle_report (s := s) (wsSessionEndStep_taken due) rfl
    refine ⟨t, next, reported, ?_, same.rsc, same.fre, same.evu, same.pending⟩
    have passed : FreWork.passingOver h = fun w => FreWork.passingOver h w := rfl
    rw [same.ws, wsEnded_ws, ← held_eq_storedFor law h, Nat.sub_self]
    refine congrArg (fun ws => ({ s.ws with
      queues := flushOwner h s.ws.queues, free := s.ws.free + (s.store h).held, fromFre := ws
      hosts := s.ws.hosts.set h
        { s.store h with held := 0, rxq := [], latch := false, resume := false, gap := false } } : Ws)) ?_
    exact List.map_congr_left fun w _ => by cases w <;> rfl
  · have stepped : evuSessionEndStep h s =
        some (report h (fun o => { o with evu := false }) (s.onEvq h fun _ => ⟨[], false⟩)) := if_pos due
    obtain ⟨t, next, reported, same⟩ := settle_report (s := s) stepped rfl
    refine ⟨t, next, reported, ?_, fun g n => ?_, fun src => ?_, same.rsc, same.fre, same.ws, same.pending⟩
    · rw [same.evq, State.onEvq_evq_self]
    · rw [same.evq, State.onEvq_evq_ne s _ n]
    · rw [same.evu]; cases src <;> rfl

theorem rscSessionEndStep_taken {s : State} {h : HostId} (due : (s.port h).toReport.rsc = true)
    (free : rscFree s = true) :
    rscSessionEndStep h s = some (report h (fun o => { o with rsc := false })
      (askWs (s.rsc.records.flatMap (sessionAsks h))
        (s.onRsc fun c => { c with records :=
          (c.records.filter fun r => !r.withdrawnBy h).map (ClaimRec.sessionEnded h) }))) := if_pos ⟨due, free⟩

/-- Settles O24. -/
theorem rscSessionEndReleasesTheHostsRecords : Obligations.RscSessionEndReleasesTheHostsRecords := by
  intro s h due free
  obtain ⟨t, next, reported, same⟩ := settle_report (s := s) (rscSessionEndStep_taken due free) rfl
  refine ⟨t, next, reported, same.rsc, ?_, same.fre, same.evu, same.pending⟩
  rw [same.ws]
  refine congrArg (fun asks => ({ s.ws with asks := s.ws.asks ++ asks } : Ws)) (List.flatMap_congr fun q _ => ?_)
  unfold sessionAsks
  by_cases own : q.host = h
  · cases body : q.body with
    | listen => simp [ClaimRec.isTalk, ClaimRec.role, body]
    | talk p =>
      have talk : q.isTalk = true := by simp [ClaimRec.isTalk, ClaimRec.role, body]
      have notListen : q.role ≠ .listen := by simp [ClaimRec.role, body]
      rcases state : q.state with _ | _ | (_ | _) <;> simp [own, talk, notListen]
  · simp [own]

end Sys2Proof.Machine
end

section
/-! O56: a flush, an ending and the owner's session end commute (R56, R101, R108). Each is written as what it does to
the parts of the state it reaches; held counts and free cells follow from the cell law. -/

namespace Sys2Proof.Machine
open Sys2Proof.Safety

/-- What one of the three commands does, part by part, the held counts, free cells and ATN outputs left out. -/
structure CellAct where
  queues  : List TxQueue → List TxQueue
  asks    : List QueueAsk → List QueueAsk
  fromFre : List FreWork → List FreWork
  host    : HostId → WsHost → WsHost
  port    : HostId → Port → Port

def flushAct (id : Nat) : CellAct :=
  { queues := List.map fun q => if q.id = id then { q with entries := [] } else q
    asks := fun l => l.erase (.flush id), fromFre := fun l => l, host := fun _ c => c, port := fun _ p => p }

def endAct (id : Nat) : CellAct :=
  { queues := List.filter fun q => decide (q.id ≠ id)
    asks := fun l => l.erase (.ending id), fromFre := fun l => l, host := fun _ c => c, port := fun _ p => p }

def sessionAct (h : HostId) : CellAct :=
  { queues := flushOwner h, asks := fun l => l, fromFre := List.map (FreWork.passingOver h)
    host := fun g c => if g = h then { c with rxq := [], latch := false, resume := false, gap := false } else c
    port := fun g p => if g = h then reportedPort p { p.toReport with ws := false } else p }

/-- A host's part without its held count, which the cell law fixes. -/
def unheld (c : WsHost) : WsHost := { c with held := 0 }

/-- A port without its ATN output. -/
def unlit (p : Port) : Port := { p with atn := false }

/-- Between s and t the parts change as the action says, and nothing else does. -/
structure Performs (a : CellAct) (s t : State) : Prop where
  rsc     : t.rsc = s.rsc
  fre     : t.fre = s.fre
  evu     : t.evu = s.evu
  pending : t.pending = s.pending
  queues  : t.ws.queues = a.queues s.ws.queues
  asks    : t.ws.asks = a.asks s.ws.asks
  fromFre : t.ws.fromFre = a.fromFre s.ws.fromFre
  host    : ∀ g, unheld (t.store g) = a.host g (unheld (s.store g))
  port    : ∀ g, unlit (t.port g) = a.port g (unlit (s.port g))
  atn     : AtnLaw t

/-- Two actions that come to the same in either order, part by part. -/
structure Commute (a b : CellAct) : Prop where
  queues  : ∀ l, a.queues (b.queues l) = b.queues (a.queues l)
  asks    : ∀ l, a.asks (b.asks l) = b.asks (a.asks l)
  fromFre : ∀ l, a.fromFre (b.fromFre l) = b.fromFre (a.fromFre l)
  host    : ∀ g c, a.host g (b.host g c) = b.host g (a.host g c)
  port    : ∀ g p, a.port g (b.port g p) = b.port g (a.port g p)

theorem Commute.symm {a b : CellAct} (c : Commute a b) : Commute b a :=
  ⟨fun l => (c.queues l).symm, fun l => (c.asks l).symm, fun l => (c.fromFre l).symm,
    fun g x => (c.host g x).symm, fun g p => (c.port g p).symm⟩

theorem commute_flush_end (id : Nat) : Commute (flushAct id) (endAct id) where
  queues l := by
    simp only [flushAct, endAct, List.filter_map]
    refine congrArg _ (List.filter_congr fun q _ => ?_)
    by_cases own : q.id = id <;> simp [own]
  asks l := List.erase_comm ..
  fromFre _ := rfl
  host _ _ := rfl
  port _ _ := rfl

theorem commute_flush_session (id : Nat) (h : HostId) : Commute (flushAct id) (sessionAct h) where
  queues l := by
    simp only [flushAct, sessionAct, flushOwner, List.map_map]
    refine List.map_congr_left fun q _ => ?_
    by_cases own : q.owner = h <;> by_cases same : q.id = id <;> simp [own, same]
  asks _ := rfl
  fromFre _ := rfl
  host _ _ := rfl
  port _ _ := rfl

theorem commute_end_session (id : Nat) (h : HostId) : Commute (endAct id) (sessionAct h) where
  queues l := by
    simp only [endAct, sessionAct, flushOwner, List.filter_map]
    refine congrArg _ (List.filter_congr fun q _ => ?_)
    by_cases own : q.owner = h <;> simp [own]
  asks _ := rfl
  fromFre _ := rfl
  host _ _ := rfl
  port _ _ := rfl

/-- Under the cell law the WS is known by its queues, its requests, its work and the hosts' parts without their
counts. -/
theorem ws_eq_of_cellLaw {u w : State} (lu : CellLaw u) (lw : CellLaw w) (queues : u.ws.queues = w.ws.queues)
    (asks : u.ws.asks = w.ws.asks) (fromFre : u.ws.fromFre = w.ws.fromFre)
    (host : ∀ g, unheld (u.store g) = unheld (w.store g)) : u.ws = w.ws := by
  have store (g : HostId) : u.store g = w.store g := by
    have held : (u.store g).held = (w.store g).held := by
      have rxq := congrArg WsHost.rxq (host g)
      rw [held_eq_storedFor lu, held_eq_storedFor lw, storedFor, storedFor, queues]
      exact congrArg (fun l : List RxRecord => txEntries w.ws.queues g + l.length) rxq
    calc u.store g = { unheld (u.store g) with held := (u.store g).held } := rfl
      _ = w.store g := by rw [host, held]; rfl
  have hosts : u.ws.hosts = w.ws.hosts := Quad.ext_get store
  have free : u.ws.free = w.ws.free := by
    have fu := lu.2.1
    have fw := lw.2.1
    simp only [store] at fu
    omega
  calc u.ws = ⟨u.ws.free, u.ws.hosts, u.ws.queues, u.ws.asks, u.ws.fromFre⟩ := rfl
    _ = w.ws := by rw [free, hosts, queues, asks, fromFre]

theorem state_ext {u w : State} (ports : u.ports = w.ports) (rsc : u.rsc = w.rsc) (fre : u.fre = w.fre)
    (ws : u.ws = w.ws) (evu : u.evu = w.evu) (pending : u.pending = w.pending) : u = w := by
  calc u = ⟨u.ports, u.rsc, u.fre, u.ws, u.evu, u.pending⟩ := rfl
    _ = w := by rw [ports, rsc, fre, ws, evu, pending]

/-- Actions that commute lead to the same state in either order. -/
theorem eq_of_commute {a b : CellAct} {s t u v w : State} (comm : Commute a b) (st : Performs a s t)
    (tu : Performs b t u) (sv : Performs b s v) (vw : Performs a v w) (lu : CellLaw u) (lw : CellLaw w) : u = w := by
  have ws : u.ws = w.ws := ws_eq_of_cellLaw lu lw
    (by rw [tu.queues, st.queues, vw.queues, sv.queues, comm.queues])
    (by rw [tu.asks, st.asks, vw.asks, sv.asks, comm.asks])
    (by rw [tu.fromFre, st.fromFre, vw.fromFre, sv.fromFre, comm.fromFre])
    (fun g => by rw [tu.host, st.host, vw.host, sv.host, comm.host])
  have evu : u.evu = w.evu := by rw [tu.evu, st.evu, vw.evu, sv.evu]
  have view (g : HostId) : unlit (u.port g) = unlit (w.port g) := by rw [tu.port, st.port, vw.port, sv.port, comm.port]
  have port (g : HostId) : u.port g = w.port g := by
    have atn : (u.port g).atn = (w.port g).atn := by
      have mask := congrArg Port.mask (view g)
      have held := congrArg Port.held (view g)
      rw [tu.atn, vw.atn, attentionNow, attentionNow, State.store, ws, State.evq, evu]
      exact congrArg₂ (fun m (r : Option Response) => attention m r.isSome (!(w.evq g).events.isEmpty)
        (w.store g).latch) mask held
    calc u.port g = { unlit (u.port g) with atn := (u.port g).atn } := rfl
      _ = w.port g := by rw [view, atn]; rfl
  exact state_ext (Quad.ext_get port) (by rw [tu.rsc, st.rsc, vw.rsc, sv.rsc]) (by rw [tu.fre, st.fre, vw.fre, sv.fre])
    ws evu (by rw [tu.pending, st.pending, vw.pending, sv.pending])

/-! ### What each command performs -/

/-- A step that gives back cells of the host of one queue and changes the queues. -/
theorem performs_giveBack {s t : State} {a : CellAct} {h : HostId} {n : Nat} {qs : List TxQueue} {ask : QueueAsk}
    (e : t = (giveBack h n ((dropAsk ask s).onQueues fun _ => qs)).refreshAtn) (queues : qs = a.queues s.ws.queues)
    (asks : a.asks = fun l => l.erase ask) (fromFre : a.fromFre = fun l => l) (host : a.host = fun _ c => c)
    (port : a.port = fun _ p => p) : Performs a s t := by
  subst e
  refine ⟨rfl, rfl, rfl, rfl, queues, by rw [asks]; rfl, by rw [fromFre]; rfl, fun g => ?_, fun g => ?_,
    refreshAtn_atnLaw _⟩
  · rw [host, State.refreshAtn_store]
    by_cases own : g = h
    · rw [own, giveBack_store_self]; rfl
    · rw [giveBack_store_ne n _ own]; rfl
  · rw [port, State.refreshAtn_port]; rfl

/-- A queue asked for that has ended: only the request is taken. -/
theorem performs_nothing {s t : State} {a : CellAct} {ask : QueueAsk} (e : t = (dropAsk ask s).refreshAtn)
    (queues : s.ws.queues = a.queues s.ws.queues) (asks : a.asks = fun l => l.erase ask)
    (fromFre : a.fromFre = fun l => l) (host : a.host = fun _ c => c) (port : a.port = fun _ p => p) :
    Performs a s t := by
  subst e
  refine ⟨rfl, rfl, rfl, rfl, queues, by rw [asks]; rfl, by rw [fromFre]; rfl, fun g => by rw [host]; rfl, fun g => ?_,
    refreshAtn_atnLaw _⟩
  rw [port, State.refreshAtn_port]; rfl

/-- A queue of the identity, the only one, or none. -/
theorem queue_of_id {qs : List TxQueue} (nodup : (qs.map TxQueue.id).Nodup) (id : Nat) :
    (∃ a q b, qs = a ++ q :: b ∧ q.id = id ∧ (∀ x ∈ a, x.id ≠ id) ∧ ∀ x ∈ b, x.id ≠ id) ∨ ∀ x ∈ qs, x.id ≠ id := by
  by_cases stands : ∃ q ∈ qs, q.id = id
  · obtain ⟨q, m, rfl⟩ := stands
    obtain ⟨a, b, rfl⟩ := List.append_of_mem m
    rw [List.map_append, List.map_cons] at nodup
    obtain ⟨-, tail, apart⟩ := List.nodup_append.mp nodup
    refine .inl ⟨a, q, b, rfl, rfl, fun x mx same => ?_, fun x mx same => ?_⟩
    · exact apart _ (List.mem_map_of_mem mx) _ List.mem_cons_self same
    · exact (List.nodup_cons.mp tail).1 (same ▸ List.mem_map_of_mem mx)
  · exact .inr fun x m same => stands ⟨x, m, same⟩

section
variable {s t : State} {id : Nat} (nodup : (s.ws.queues.map TxQueue.id).Nodup)
include nodup

theorem performs_flush (ask : .flush id ∈ s.ws.asks) (ran : exec (.queueFlush id) s = .next t) :
    Performs (flushAct id) s t := by
  have e : t = (flushQueue id (dropAsk (.flush id) s)).refreshAtn :=
    Host.Outcome.next.inj (ran.symm.trans (settle_some (queueFlushStep_taken ask)))
  have away (l : List TxQueue) (no : ∀ x ∈ l, x.id ≠ id) : (flushAct id).queues l = l := by
    refine (List.map_congr_left fun x m => ?_).trans (List.map_id l)
    exact if_neg (no x m)
  obtain ⟨a, q, b, queues, own, first, last⟩ | none := queue_of_id nodup id
  · rw [flushQueue_eq (s := dropAsk (.flush id) s) queues own first] at e
    refine performs_giveBack e ?_ rfl rfl rfl rfl
    have split : (flushAct id).queues (a ++ q :: b) =
        (flushAct id).queues a ++ { q with entries := [] } :: (flushAct id).queues b := by
      simp only [flushAct, List.map_append, List.map_cons, own, if_true]
    rw [queues, split]
    exact congrArg₂ (fun a b => a ++ { q with entries := [] } :: b) (away a first).symm (away b last).symm
  · rw [flushQueue_ended (s := dropAsk (.flush id) s) none] at e
    exact performs_nothing e (away _ none).symm rfl rfl rfl rfl

theorem performs_end (ask : .ending id ∈ s.ws.asks) (ran : exec (.queueEnding id) s = .next t) :
    Performs (endAct id) s t := by
  have e : t = (endQueue id (dropAsk (.ending id) s)).refreshAtn :=
    Host.Outcome.next.inj (ran.symm.trans (settle_some (queueEndingStep_taken ask)))
  have away (l : List TxQueue) (no : ∀ x ∈ l, x.id ≠ id) : (endAct id).queues l = l :=
    List.filter_eq_self.mpr fun x m => decide_eq_true (no x m)
  obtain ⟨a, q, b, queues, own, first, last⟩ | none := queue_of_id nodup id
  · rw [endQueue_eq (s := dropAsk (.ending id) s) queues own first] at e
    refine performs_giveBack e ?_ rfl rfl rfl rfl
    have split : (endAct id).queues (a ++ q :: b) = (endAct id).queues a ++ (endAct id).queues b := by
      simp [endAct, own]
    rw [queues, split]
    exact congrArg₂ (· ++ ·) (away a first).symm (away b last).symm
  · rw [endQueue_ended (s := dropAsk (.ending id) s) none] at e
    exact performs_nothing e (away _ none).symm rfl rfl rfl rfl

end

theorem unlit_reportedPort (p : Port) (left : Owners) : unlit (reportedPort p left) = reportedPort (unlit p) left := by
  unfold reportedPort unlit
  split
  · dsimp only
    cases p.inProgress <;> rfl
  · rfl

theorem unlit_refreshAtn (s : State) (g : HostId) : unlit (s.refreshAtn.port g) = unlit (s.port g) := by
  rw [State.refreshAtn_port]
  rfl

theorem performs_session {s t : State} {h : HostId} (due : (s.port h).toReport.ws = true)
    (ran : exec (.wsSessionEnd h) s = .next t) : Performs (sessionAct h) s t := by
  have e : t = (report h (fun o => { o with ws := false }) (wsEnded h s)).refreshAtn :=
    Host.Outcome.next.inj (ran.symm.trans (settle_some (wsSessionEndStep_taken due)))
  subst e
  have ws : (report h (fun o => { o with ws := false }) (wsEnded h s)).refreshAtn.ws = (wsEnded h s).ws := report_ws ..
  refine ⟨by simp; rfl, by simp; rfl, by simp; rfl, by simp; rfl, ?_, ?_, ?_, fun g => ?_, fun g => ?_,
    refreshAtn_atnLaw _⟩
  · rw [ws, wsEnded_ws]; rfl
  · rw [ws, wsEnded_ws]; rfl
  · rw [ws, wsEnded_ws]; rfl
  · rw [State.store, ws, wsEnded_ws]
    dsimp only [sessionAct]
    by_cases own : g = h
    · rw [own, Quad.get_set_self, if_pos rfl]; rfl
    · rw [Quad.get_set_ne _ _ own, if_neg own]; rfl
  · have port : (wsEnded h s).port g = s.port g := rfl
    rw [unlit_refreshAtn]
    dsimp only [sessionAct]
    by_cases own : g = h
    · subst own
      rw [report_port_self, if_pos rfl, port, unlit_reportedPort]
      rfl
    · rw [report_port_ne _ _ _ own, if_neg own, port]

/-- The command performs the action in every state in which it is ready and the queues' identities are distinct. -/
structure Acts (c : Instr) (a : CellAct) (ready : State → Prop) : Prop where
  performs : ∀ {s t : State}, (s.ws.queues.map TxQueue.id).Nodup → ready s → exec c s = .next t → Performs a s t
  ids      : ∀ l, ((a.queues l).map TxQueue.id).Sublist (l.map TxQueue.id)

theorem acts_flush (id : Nat) : Acts (.queueFlush id) (flushAct id) fun s => .flush id ∈ s.ws.asks where
  performs := performs_flush
  ids l := by
    have kept : TxQueue.id ∘ (fun q => if q.id = id then { q with entries := [] } else q) = TxQueue.id := by
      funext q
      by_cases own : q.id = id <;> simp [own]
    rw [flushAct, List.map_map, kept]

theorem acts_end (id : Nat) : Acts (.queueEnding id) (endAct id) fun s => .ending id ∈ s.ws.asks where
  performs := performs_end
  ids _ := List.filter_sublist.map _

theorem acts_session (h : HostId) : Acts (.wsSessionEnd h) (sessionAct h) fun s => (s.port h).toReport.ws = true where
  performs := fun _ => performs_session
  ids l := by
    have kept : TxQueue.id ∘ (fun q => if q.owner = h then { q with entries := [] } else q) = TxQueue.id := by
      funext q
      by_cases own : q.owner = h <;> simp [own]
    dsimp only [sessionAct]
    rw [flushOwner, List.map_map, kept]

/-- The two commands lead from s to the same state in either order. -/
def SameEitherOrder (c d : Instr) (s : State) : Prop :=
  ∀ {t u v w : State}, exec c s = .next t → exec d t = .next u → exec d s = .next v → exec c v = .next w → u = w

/-- Two commands whose actions commute, neither taking the other's cause away, lead to the same state. -/
theorem Acts.commute {c d : Instr} {a b : CellAct} {rc rd : State → Prop} {s : State} (ca : Acts c a rc)
    (db : Acts d b rd) (comm : Commute a b) (keepC : ∀ {s t}, Performs b s t → rc s → rc t)
    (keepD : ∀ {s t}, Performs a s t → rd s → rd t) (law : CellLaw s) (nodup : (s.ws.queues.map TxQueue.id).Nodup)
    (readyC : rc s) (readyD : rd s) : SameEitherOrder c d s := by
  intro t u v w st tu sv vw
  have pst := ca.performs nodup readyC st
  have psv := db.performs nodup readyD sv
  have ptu := db.performs (pst.queues ▸ nodup.sublist (ca.ids _)) (keepD pst readyD) tu
  have pvw := ca.performs (psv.queues ▸ nodup.sublist (db.ids _)) (keepC psv readyC) vw
  exact eq_of_commute comm pst ptu psv pvw (exec_cellLaw d (exec_cellLaw c law st) tu)
    (exec_cellLaw c (exec_cellLaw d law sv) vw)

theorem due_of_port {s t : State} {h : HostId} (same : unlit (t.port h) = unlit (s.port h))
    (due : (s.port h).toReport.ws = true) : (t.port h).toReport.ws = true := by
  have toReport := congrArg Port.toReport same
  have toReport' : (t.port h).toReport = (s.port h).toReport := toReport
  rw [toReport', due]

/-- Settles O56: the three pairs of different commands, each in both orders. -/
theorem cellsReturnOnceInEitherOrder : Obligations.CellsReturnOnceInEitherOrder := by
  intro s id h c d mc md law _ nodup flush ending due t u v w st tu sv vw
  refine ⟨?_, exec_cellLaw d (exec_cellLaw c law st) tu⟩
  have flushEnd : SameEitherOrder (.queueFlush id) (.queueEnding id) s :=
    (acts_flush id).commute (acts_end id) (commute_flush_end id)
    (fun p m => by rw [p.asks]; exact (List.mem_erase_of_ne (show QueueAsk.flush id ≠ .ending id from nofun)).mpr m)
    (fun p m => by rw [p.asks]; exact (List.mem_erase_of_ne (show QueueAsk.ending id ≠ .flush id from nofun)).mpr m)
    law nodup flush ending
  have flushSession : SameEitherOrder (.queueFlush id) (.wsSessionEnd h) s :=
    (acts_flush id).commute (acts_session h) (commute_flush_session id h)
    (fun p m => by rw [p.asks]; exact m) (fun p => due_of_port (p.port h)) law nodup flush due
  have endSession : SameEitherOrder (.queueEnding id) (.wsSessionEnd h) s :=
    (acts_end id).commute (acts_session h) (commute_end_session id h)
    (fun p m => by rw [p.asks]; exact m) (fun p => due_of_port (p.port h)) law nodup ending due
  have same (e : c = d) : u = w := by
    subst e
    cases Host.Outcome.next.inj (st.symm.trans sv)
    exact Host.Outcome.next.inj (tu.symm.trans vw)
  simp only [List.mem_cons, List.not_mem_nil, or_false] at mc md
  rcases mc with rfl | rfl | rfl
  · rcases md with rfl | rfl | rfl
    · exact same rfl
    · exact flushEnd st tu sv vw
    · exact flushSession st tu sv vw
  · rcases md with rfl | rfl | rfl
    · exact (flushEnd sv vw st tu).symm
    · exact same rfl
    · exact endSession st tu sv vw
  · rcases md with rfl | rfl | rfl
    · exact (flushSession sv vw st tu).symm
    · exact (endSession sv vw st tu).symm
    · exact same rfl

end Sys2Proof.Machine
end

section
/-! O15, O16: request payloads and their layouts (R176 to R180, Tables 25 to 27). -/

namespace Sys2Proof.Machine
open Sys2Proof.Safety

/-! ### Fields (R176) -/

theorem word_be32 (w : Word) :
    word (w.extractLsb' 24 8) (w.extractLsb' 16 8) (w.extractLsb' 8 8) (w.extractLsb' 0 8) = w := by
  apply BitVec.eq_of_getLsbD_eq
  intro i small
  simp only [word, BitVec.getLsbD_append, BitVec.getLsbD_extractLsb']
  by_cases b0 : i < 8
  · simp [b0]
  · by_cases b1 : i - 8 < 8
    · simp [b0, b1, show 8 + (i - 8) = i by omega]
    · by_cases b2 : i - 8 - 8 < 8
      · simp [b0, b1, b2, show 16 + (i - 8 - 8) = i by omega]
      · simp [b0, b1, b2, show i - 8 - 8 - 8 < 8 by omega, show 24 + (i - 8 - 8 - 8) = i by omega]

theorem be32_word (b3 b2 b1 b0 : Byte) : be32 (word b3 b2 b1 b0) = [b3, b2, b1, b0] := by
  have byte0 : (word b3 b2 b1 b0).extractLsb' 0 8 = b0 := by
    apply BitVec.eq_of_getLsbD_eq
    intro i small
    simp only [word, BitVec.getLsbD_extractLsb', BitVec.getLsbD_append, small, decide_true, Bool.true_and]
    simp [small]
  have byte1 : (word b3 b2 b1 b0).extractLsb' 8 8 = b1 := by
    apply BitVec.eq_of_getLsbD_eq
    intro i small
    simp only [word, BitVec.getLsbD_extractLsb', BitVec.getLsbD_append, small, decide_true, Bool.true_and]
    simp [small]
  have byte2 : (word b3 b2 b1 b0).extractLsb' 16 8 = b2 := by
    apply BitVec.eq_of_getLsbD_eq
    intro i small
    simp only [word, BitVec.getLsbD_extractLsb', BitVec.getLsbD_append, small, decide_true, Bool.true_and]
    simp [small, show 16 + i - 8 - 8 = i by omega, show ¬16 + i < 8 by omega, show ¬16 + i - 8 < 8 by omega]
  have byte3 : (word b3 b2 b1 b0).extractLsb' 24 8 = b3 := by
    apply BitVec.eq_of_getLsbD_eq
    intro i small
    simp only [word, BitVec.getLsbD_extractLsb', BitVec.getLsbD_append, small, decide_true, Bool.true_and]
    simp [show 24 + i - 8 - 8 - 8 = i by omega, show ¬24 + i < 8 by omega, show ¬24 + i - 8 < 8 by omega,
      show ¬24 + i - 8 - 8 < 8 by omega]
  rw [be32, byte3, byte2, byte1, byte0]

/-! ### Enumerated bytes (Table 25, R180) -/

/-- A byte read by two values: the first, the second, or nothing. -/
theorem ofTwo_eq_some {α : Type} {b x y : Byte} {u v a : α}
    (read : (if b = x then some u else if b = y then some v else none) = some a) :
    b = x ∧ a = u ∨ b = y ∧ a = v := by
  split at read
  · cases read; exact .inl ⟨‹_›, rfl⟩
  · split at read
    · cases read; exact .inr ⟨‹_›, rfl⟩
    · cases read

theorem roleOfByte_code (r : Role) : Role.ofByte r.code = some r := by cases r <;> rfl
theorem fillOfByte_code (f : FillPolicy) : FillPolicy.ofByte f.code = some f := by cases f <;> rfl
theorem yesNoOfByte_yesNo (b : Bool) : yesNoOfByte (yesNo b) = some b := by cases b <;> rfl
theorem syncOfByte_code (s : SyncStyle) : SyncStyle.ofByte s.code = some s := by cases s <;> rfl
theorem modeOfByte_code (m : Mode) : Mode.ofByte m.code = some m := by cases m <;> rfl

theorem code_of_roleOfByte {b : Byte} {r : Role} (read : Role.ofByte b = some r) : b = r.code := by
  obtain ⟨rfl, rfl⟩ | ⟨rfl, rfl⟩ := ofTwo_eq_some read <;> rfl

theorem code_of_modeOfByte {b : Byte} {m : Mode} (read : Mode.ofByte b = some m) : b = m.code := by
  obtain ⟨rfl, rfl⟩ | ⟨rfl, rfl⟩ := ofTwo_eq_some read <;> rfl

theorem code_of_syncOfByte {b : Byte} {s : SyncStyle} (read : SyncStyle.ofByte b = some s) : b = s.code := by
  obtain ⟨rfl, rfl⟩ | ⟨rfl, rfl⟩ := ofTwo_eq_some read <;> rfl

theorem yesNo_of_yesNoOfByte {b : Byte} {x : Bool} (read : yesNoOfByte b = some x) : b = yesNo x := by
  obtain ⟨rfl, rfl⟩ | ⟨rfl, rfl⟩ := ofTwo_eq_some read <;> rfl

theorem code_of_releaseOfByte {b : Byte} {m : ReleaseMode} (read : ReleaseMode.ofByte b = some m) :
    b = if m = .discard then 0x00#8 else 0x01#8 := by
  obtain ⟨rfl, rfl⟩ | ⟨rfl, rfl⟩ := ofTwo_eq_some read <;> rfl

theorem code_of_fillOfByte {b : Byte} {f : FillPolicy} (read : FillPolicy.ofByte b = some f) : b = f.code := by
  unfold FillPolicy.ofByte at read
  split at read
  · cases read; assumption
  · obtain ⟨rfl, rfl⟩ | ⟨rfl, rfl⟩ := ofTwo_eq_some read <;> rfl

/-! ### Slot lists (R26, R32, R37, R179) -/

theorem map_nat8_map_toNat (bytes : List Byte) : (bytes.map BitVec.toNat).map nat8 = bytes := by
  rw [List.map_map]
  exact (List.map_congr_left fun b _ => nat8_toNat_eq b).trans (List.map_id bytes)

theorem map_toNat_map_nat8 {slots : List Nat} (small : ∀ x ∈ slots, x < 256) :
    (slots.map nat8).map BitVec.toNat = slots := by
  rw [List.map_map]
  exact (List.map_congr_left fun x m => nat8_toNat (small x m)).trans (List.map_id slots)

/-- A slot list is read exactly from its count and its bytes. -/
theorem slotList_eq_some {n : Byte} {rest : List Byte} {slots : List Nat} :
    slotList n rest = some slots ↔
      (1 ≤ slots.length ∧ slots.length ≤ 8 ∧ ∀ x ∈ slots, x < 256) ∧
        n = nat8 slots.length ∧ rest = slots.map nat8 := by
  unfold slotList
  constructor
  · intro read
    split at read
    · rename_i ok
      obtain ⟨low, high, length⟩ := ok
      cases read
      rw [List.length_map, length, nat8_toNat_eq, map_nat8_map_toNat]
      exact ⟨⟨low, high, fun x m => by obtain ⟨b, -, rfl⟩ := List.mem_map.mp m; exact b.isLt⟩, rfl, rfl⟩
    · cases read
  · rintro ⟨⟨low, high, small⟩, rfl, rfl⟩
    rw [nat8_toNat (by omega), map_toNat_map_nat8 small, if_pos ⟨low, high, List.length_map ..⟩]

/-! ### The entries of a WRITE_WORDS (Table 26) -/

/-- The five bytes of an entry; of a SILENCE they carry a word that is not examined. -/
def entryBytes (e : TxEntry × Word) : List Byte :=
  match e.1 with
  | .word w => 0x01#8 :: be32 w
  | .silence => 0x02#8 :: be32 e.2

theorem entryBytes_word (w x : Word) : entryBytes (.word w, x) = 0x01#8 :: be32 w := rfl
theorem entryBytes_silence (x : Word) : entryBytes (.silence, x) = 0x02#8 :: be32 x := rfl

theorem parseEntries_entryBytes (ws : List (TxEntry × Word)) :
    parseEntries ws.length (ws.flatMap entryBytes) = some (ws.map Prod.fst) := by
  induction ws with
  | nil => rfl
  | cons e ws ih =>
    rcases e with ⟨w | _, x⟩
    · have layout : ((TxEntry.word w, x) :: ws).flatMap entryBytes =
          0x01#8 :: w.extractLsb' 24 8 :: w.extractLsb' 16 8 :: w.extractLsb' 8 8 :: w.extractLsb' 0 8 ::
            ws.flatMap entryBytes := rfl
      rw [layout, List.length_cons, parseEntries, ih]
      dsimp only
      rw [if_pos rfl, word_be32]
      rfl
    · have layout : ((TxEntry.silence, x) :: ws).flatMap entryBytes =
          0x02#8 :: x.extractLsb' 24 8 :: x.extractLsb' 16 8 :: x.extractLsb' 8 8 :: x.extractLsb' 0 8 ::
            ws.flatMap entryBytes := rfl
      rw [layout, List.length_cons, parseEntries, ih]
      rfl

theorem entryBytes_of_parseEntries {n : Nat} {bytes : List Byte} {es : List TxEntry}
    (read : parseEntries n bytes = some es) :
    es.length = n ∧ ∃ ws : List (TxEntry × Word), es = ws.map Prod.fst ∧ bytes = ws.flatMap entryBytes := by
  induction n generalizing bytes es with
  | zero =>
    unfold parseEntries at read
    split at read
    · cases read; exact ⟨rfl, [], rfl, rfl⟩
    · rename_i m _ _ _ _ _ _ e; cases e
    · cases read
  | succ n ih =>
    unfold parseEntries at read
    split at read
    · rename_i e; cases e
    · rename_i m kind b3 b2 b1 b0 rest e
      cases e
      split at read
      · rename_i es' tail
        obtain ⟨length, ws, rfl, rfl⟩ := ih tail
        split at read
        · rename_i isWord
          cases read
          refine ⟨by rw [List.length_cons, length], (.word (word b3 b2 b1 b0), 0#32) :: ws, rfl, ?_⟩
          rw [List.flatMap_cons, entryBytes_word, be32_word, isWord]
          rfl
        · split at read
          · rename_i isSilence
            cases read
            refine ⟨by rw [List.length_cons, length], (.silence, word b3 b2 b1 b0) :: ws, rfl, ?_⟩
            rw [List.flatMap_cons, entryBytes_silence, be32_word, isSilence]
            rfl
          · cases read
      · cases read
    · cases read

/-! ### The two statements -/

theorem parseFormat_encode {f : Format} (slots : 2 ≤ f.slots ∧ f.slots ≤ 64)
    (width : f.width = 8 ∨ f.width = 16 ∨ f.width = 24 ∨ f.width = 32) (gap : f.gap ≤ 15)
    (div : 1 ≤ f.div ∧ f.div ≤ 2048) : parseFormat f.encode = some f := by
  have bslots : (nat8 f.slots).toNat = f.slots := nat8_toNat (by omega)
  have bwidth : (nat8 f.width).toNat = f.width := nat8_toNat (by omega)
  have bgap : (nat8 f.gap).toNat = f.gap := nat8_toNat (by omega)
  have bdiv : (BitVec.ofNat 16 f.div).toNat = f.div := by rw [BitVec.toNat_ofNat, Nat.mod_eq_of_lt (by omega)]
  have ok : 2 ≤ f.slots ∧ f.slots ≤ Config.maxSlots ∧
      (f.width = 8 ∨ f.width = 16 ∨ f.width = 24 ∨ f.width = 32) ∧ f.gap ≤ Config.maxGap ∧
      1 ≤ f.div ∧ f.div ≤ Config.maxDivider := ⟨slots.1, slots.2, width, gap, div.1, div.2⟩
  simp only [Format.encode, nat16, be16, be32, List.cons_append, List.nil_append, parseFormat, syncOfByte_code,
    modeOfByte_code, half_be16, word_be32, bslots, bwidth, bgap, bdiv, if_pos ok]

/-- Settles O15, payload by payload. -/
theorem payloadsAreReadFieldByField : Obligations.PayloadsAreReadFieldByField := by
  refine ⟨fun slots low high small => ?_, fun slot es low high => ?_, ?_⟩
  · have list : slotList (nat8 slots.length) (slots.map nat8) = some slots :=
      slotList_eq_some.mpr ⟨⟨low, high, small⟩, rfl, rfl⟩
    refine ⟨fun lease fill depth auto shallow deep => ?_, fun lease b3 b4 b5 => ?_, fun role mode m code => ?_,
      fun role => ?_⟩
    · have bdepth : (nat8 depth).toNat = depth := nat8_toNat (by omega)
      have talk : Role.ofByte 0x00#8 = some .talk := rfl
      have ok : 1 ≤ depth ∧ depth ≤ Config.maxDepth := ⟨shallow, deep⟩
      simp only [be16, List.cons_append, List.nil_append, parseClaim, talk, list, fillOfByte_code, yesNoOfByte_yesNo,
        bdepth, if_pos ok, half_be16, newTalk]
    · have listen : Role.ofByte 0x01#8 = some .listen := rfl
      simp only [be16, List.cons_append, List.nil_append, parseClaim, listen, list, half_be16]
    · have read : ReleaseMode.ofByte m = some mode := by obtain ⟨rfl, rfl⟩ | ⟨rfl, rfl⟩ := code <;> rfl
      simp only [List.cons_append, List.nil_append, parseRelease, roleOfByte_code, read, list]
    · simp only [List.cons_append, List.nil_append, parseRenew, roleOfByte_code, list]
  · have count : (nat8 es.length).toNat = es.length := nat8_toNat (by omega)
    have ok : 1 ≤ es.length ∧ es.length ≤ Config.maxWriteEntries := ⟨low, high⟩
    refine (congrArg (fun l => parseWrite (slot :: nat8 es.length :: l)) (List.flatMap_congr (g := entryBytes)
      fun e _ => ?_)).trans ?_
    · rcases e with ⟨_ | _, _⟩ <;> rfl
    simp only [parseWrite, count, if_pos ok, parseEntries_entryBytes]
  · intro f low high width gap one div
    exact parseFormat_encode ⟨low, high⟩ width gap ⟨one, div⟩

theorem parseClaim_layout {p : List Byte} {a : ClaimArgs} (read : parseClaim p = some a) :
    (1 ≤ a.slots.length ∧ a.slots.length ≤ 8 ∧ ∀ x ∈ a.slots, x < 256) ∧
    ∃ b3 b4 b5, p = [a.body.role.code] ++ be16 a.lease ++ [b3, b4, b5, nat8 a.slots.length] ++ a.slots.map nat8 ∧
      ∀ t, a.body = .talk t →
        b3 = t.fill.code ∧ b4 = nat8 t.depth ∧ 1 ≤ t.depth ∧ t.depth ≤ 16 ∧ b5 = yesNo t.autoRenew ∧
        t.lastWord = none ∧ t.underruns = 0#8 ∧ t.reported = false := by
  unfold parseClaim at read
  split at read
  · rename_i role l1 l0 fill depth renew n rest
    split at read
    · rename_i slots isTalk list
      obtain ⟨range, rfl, rfl⟩ := slotList_eq_some.mp list
      split at read
      · rename_i f auto isFill isAuto
        split at read
        · rename_i deep
          cases read
          refine ⟨range, fill, depth, renew, ?_, ?_⟩
          · rw [code_of_roleOfByte isTalk]
            simp [be16_half, newTalk, RecBody.role]
          · intro t body
            cases body
            exact ⟨code_of_fillOfByte isFill, (nat8_toNat_eq depth).symm, deep.1, deep.2, yesNo_of_yesNoOfByte isAuto,
              rfl, rfl, rfl⟩
        · cases read
      · cases read
    · rename_i slots isListen list
      obtain ⟨range, rfl, rfl⟩ := slotList_eq_some.mp list
      cases read
      refine ⟨range, fill, depth, renew, ?_, nofun⟩
      rw [code_of_roleOfByte isListen]
      simp [be16_half, RecBody.role]
    · cases read
  · cases read

theorem parseRelease_layout {p : List Byte} {a : ReleaseArgs} (read : parseRelease p = some a) :
    (1 ≤ a.slots.length ∧ a.slots.length ≤ 8 ∧ ∀ x ∈ a.slots, x < 256) ∧
    p = [a.role.code, if a.mode = .discard then 0x00#8 else 0x01#8, nat8 a.slots.length] ++ a.slots.map nat8 := by
  unfold parseRelease at read
  split at read
  · rename_i role mode n rest
    split at read
    · rename_i r m slots isRole isMode list
      obtain ⟨range, rfl, rfl⟩ := slotList_eq_some.mp list
      cases read
      refine ⟨range, ?_⟩
      rw [code_of_roleOfByte isRole, code_of_releaseOfByte isMode]
      rfl
    · cases read
  · cases read

theorem parseRenew_layout {p : List Byte} {role : Role} {slots : List Nat} (read : parseRenew p = some (role, slots)) :
    (1 ≤ slots.length ∧ slots.length ≤ 8 ∧ ∀ x ∈ slots, x < 256) ∧
    p = [role.code, nat8 slots.length] ++ slots.map nat8 := by
  unfold parseRenew at read
  split at read
  · rename_i b n rest
    split at read
    · rename_i r ss isRole list
      obtain ⟨range, rfl, rfl⟩ := slotList_eq_some.mp list
      cases read
      rw [code_of_roleOfByte isRole]
      exact ⟨range, rfl⟩
    · cases read
  · cases read

theorem parseWrite_layout {p : List Byte} {slot : Nat} {es : List TxEntry} (read : parseWrite p = some (slot, es)) :
    1 ≤ es.length ∧ es.length ≤ 32 ∧ slot < 256 ∧
    ∃ ws : List (TxEntry × Word), es = ws.map Prod.fst ∧
      p = nat8 slot :: nat8 es.length :: ws.flatMap entryBytes := by
  unfold parseWrite at read
  split at read
  · rename_i b n rest
    split at read
    · rename_i range
      split at read
      · rename_i entries parsed
        cases read
        obtain ⟨length, ws, names, rfl⟩ := entryBytes_of_parseEntries parsed
        rw [length, nat8_toNat_eq, nat8_toNat_eq]
        exact ⟨range.1, range.2, b.isLt, ws, names, rfl⟩
      · cases read
    · cases read
  · cases read

theorem parseFormat_layout {p : List Byte} {f : Format} (read : parseFormat p = some f) :
    p = f.encode ∧ 2 ≤ f.slots ∧ f.slots ≤ 64 ∧
    (f.width = 8 ∨ f.width = 16 ∨ f.width = 24 ∨ f.width = 32) ∧ f.gap ≤ 15 ∧ 1 ≤ f.div ∧ f.div ≤ 2048 := by
  unfold parseFormat at read
  split at read
  · rename_i bf bw bg bs bm d1 d0 i3 i2 i1 i0
    split at read
    · rename_i s m isSync isMode
      split at read
      · rename_i ok
        cases read
        refine ⟨?_, ok⟩
        rw [code_of_syncOfByte isSync, code_of_modeOfByte isMode, Format.encode, nat16]
        dsimp only
        rw [BitVec.ofNat_toNat, BitVec.setWidth_eq, be16_half, be32_word, nat8_toNat_eq, nat8_toNat_eq, nat8_toNat_eq]
        rfl
      · cases read
    · cases read
  · cases read

/-- Settles O16, payload by payload. -/
theorem onlyPayloadsInRangeAreRead : Obligations.OnlyPayloadsInRangeAreRead := by
  refine ⟨fun p a read => ?_, fun p a read => ?_, fun p role slots read => ?_, fun p slot es read => ?_,
    fun p f read => parseFormat_layout read⟩
  · obtain ⟨⟨low, high, small⟩, layout⟩ := parseClaim_layout read
    exact ⟨low, high, small, layout⟩
  · obtain ⟨⟨low, high, small⟩, layout⟩ := parseRelease_layout read
    exact ⟨low, high, small, layout⟩
  · obtain ⟨⟨low, high, small⟩, layout⟩ := parseRenew_layout read
    exact ⟨low, high, small, layout⟩
  · obtain ⟨low, high, small, ws, names, layout⟩ := parseWrite_layout read
    refine ⟨low, high, small, ws, names, layout.trans ?_⟩
    refine congrArg (fun l => nat8 slot :: nat8 es.length :: l) (List.flatMap_congr fun e _ => ?_)
    rcases e with ⟨_ | _, _⟩ <;> rfl

end Sys2Proof.Machine
end

section
/-! O14: the arbiter (R21, R22). -/

namespace Sys2Proof.Machine
open Sys2Proof.Safety

/-- How many ports stand between p and g in the circular order. -/
def ahead (p g : HostId) : Nat := ((hostCode g).toNat + 3 - (hostCode p).toNat) % 4

theorem hostCode_lt (h : HostId) : (hostCode h).toNat < 4 := by cases h <;> simp [hostCode]

theorem hostCode_inj {g h : HostId} (same : (hostCode g).toNat = (hostCode h).toNat) : g = h :=
  Option.some.inj (by rw [← hostOfByte_hostCode g, ← hostOfByte_hostCode h, BitVec.eq_of_toNat_eq same])

/-- The arbiter looks at the ports in the order of their distance from the pointer. -/
theorem arbiterOrder_sorted (p : HostId) : (arbiterOrder p).Pairwise fun a b => ahead p a < ahead p b := by
  cases p <;> simp [arbiterOrder, nextHost, ahead, hostCode]

/-- Once the pointer stands at h, a port that was behind h has come nearer. -/
theorem ahead_lt {p h g : HostId} (behind : ahead p h ≤ ahead p g) (other : g ≠ h) : ahead h g < ahead p g := by
  have hp := hostCode_lt p
  have hh := hostCode_lt h
  have hg := hostCode_lt g
  have apart : (hostCode g).toNat ≠ (hostCode h).toNat := fun same => other (hostCode_inj same)
  unfold ahead at behind ⊢
  omega

/-- No waiting port stands before the one chosen. -/
theorem granted_first {s : State} {h g : HostId} (chosen : granted s = some h) (waits : waitsAt s .rsc g = true) :
    ahead s.rsc.pointer h ≤ ahead s.rsc.pointer g := by
  obtain ⟨a, b, order, -, no⟩ := exists_first chosen
  have sorted := arbiterOrder_sorted s.rsc.pointer
  have m := mem_arbiterOrder s.rsc.pointer g
  rw [order] at sorted m
  rcases List.mem_append.mp m with before | after
  · rw [no g before] at waits; cases waits
  · rcases List.mem_cons.mp after with rfl | behind
    · exact Nat.le_refl _
    · exact Nat.le_of_lt ((List.pairwise_cons.mp (List.pairwise_append.mp sorted).2.1).1 g behind)

/-- A request that waits at the RSC is of one of its four kinds. -/
theorem waitsAt_rsc {s : State} {h : HostId} (waits : waitsAt s .rsc h = true) :
    ∃ r, (s.port h).inProgress = some r ∧
      (r.kind = .claim ∨ r.kind = .release ∨ r.kind = .renew ∨ r.kind = .querySlot) := by
  unfold waitsAt at waits
  split at waits
  · rename_i r inProgress
    refine ⟨r, inProgress, ?_⟩
    have owner := of_decide_eq_true (Bool.and_eq_true .. ▸ waits).1
    cases kind : r.kind <;> simp [Kind.owner, kind] at owner ⊢
  · cases waits

/-! ### The pointer stays where the arbiter put it -/

theorem foldl_pointer {act : State → Nat → State} (each : ∀ t x, (act t x).rsc.pointer = t.rsc.pointer)
    (slots : List Nat) (t : State) : (slots.foldl act t).rsc.pointer = t.rsc.pointer :=
  List.foldlRecOn (motive := fun u => u.rsc.pointer = t.rsc.pointer) slots act rfl
    fun u soFar x _ => (each u x).trans soFar

theorem releaseSlot_pointer (h : HostId) (role : Role) (mode : ReleaseMode) (t : State) (slot : Nat) :
    (releaseSlot h role mode t slot).rsc.pointer = t.rsc.pointer := by
  unfold releaseSlot
  split
  · split <;> rfl
  · rfl

theorem renewSlot_pointer (h : HostId) (role : Role) (t : State) (slot : Nat) :
    (renewSlot h role t slot).rsc.pointer = t.rsc.pointer := by
  unfold renewSlot
  split <;> rfl

/-- The action on a request of the RSC either refuses it, changing nothing, or answers OK. -/
structure ClaimEnd (h : HostId) (t u : State) : Prop where
  ends : (∃ res p, u = answer h res p t) ∨ ∃ p v, u = answer h .ok p v ∧ ClaimFrame t v ∧ v.rsc.pointer = t.rsc.pointer

theorem ClaimEnd.refused {h : HostId} {t : State} (res : Result) (p : List Byte) : ClaimEnd h t (answer h res p t) :=
  ⟨.inl ⟨res, p, rfl⟩⟩

theorem claimFor_end (h : HostId) (r : Request) (t : State) : ClaimEnd h t (claimFor h r t) := by
  unfold claimFor
  split
  · exact .refused ..
  · split
    · exact .refused ..
    · exact ⟨.inr ⟨_, _, rfl, .foldl (createRecord_frame h _ _) _ t,
        foldl_pointer (fun t x => by rw [createRecord_rsc]) _ t⟩⟩

theorem releaseFor_end (h : HostId) (r : Request) (t : State) : ClaimEnd h t (releaseFor h r t) := by
  unfold releaseFor
  split
  · exact .refused ..
  · split
    · exact .refused ..
    · exact ⟨.inr ⟨_, _, rfl, .foldl (releaseSlot_frame h _ _) _ t, foldl_pointer (releaseSlot_pointer h _ _) _ t⟩⟩

theorem renewFor_end (h : HostId) (r : Request) (t : State) : ClaimEnd h t (renewFor h r t) := by
  unfold renewFor
  split
  · exact .refused ..
  · split
    · exact .refused ..
    · exact ⟨.inr ⟨_, _, rfl, .foldl (renewSlot_frame h _) _ t, foldl_pointer (renewSlot_pointer h _) _ t⟩⟩

theorem querySlotFor_end (h : HostId) (r : Request) (t : State) : ClaimEnd h t (querySlotFor h r t) := by
  unfold querySlotFor
  split
  · exact .refused ..
  · split
    · exact .refused ..
    · exact .refused ..

/-- A request of the RSC taken is answered, with the pointer at its port. -/
theorem settle_claimEnd {s u : State} {o : Option State} {h : HostId} {r : Request} (e : o = some u)
    (ends : ClaimEnd h (pointAt h s) u) (asked : (s.port h).inProgress = some r) :
    ∃ t res payload, settle s o = .next t ∧ t.rsc.pointer = h ∧ Replied s t h r res payload := by
  obtain ⟨res, p, rfl⟩ | ⟨p, v, rfl, frame, pointer⟩ := ends.ends
  · obtain ⟨t, next, replied, same⟩ := settle_answer e (pointAt_portsKept h s) asked
    exact ⟨t, res, p, next, by rw [same.rsc]; rfl, replied⟩
  · obtain ⟨t, next, replied, same⟩ := settle_answer (s := s) e (portsKept_of_ports frame.ports) asked
    exact ⟨t, .ok, p, next, by rw [same.rsc, pointer]; rfl, replied⟩

/-- Settles O14. -/
theorem arbiterServesInCircularOrder : Obligations.ArbiterServesInCircularOrder := by
  intro s after dist
  have same (p g : HostId) : after p g = ahead p g := dist p g
  simp only [same]
  refine ⟨fun h chosen => ⟨granted_waits chosen, fun g waits => ⟨granted_first chosen waits,
    ahead_lt (granted_first chosen waits)⟩⟩, fun ⟨g, waits⟩ => granted_isSome waits, fun h chosen => ?_⟩
  obtain ⟨r, inProgress, kind⟩ := waitsAt_rsc (granted_waits chosen.2)
  rcases kind with kind | kind | kind | kind
  · obtain ⟨t, res, p, next, pointer, replied⟩ := settle_claimEnd
      (claimStep_iff.mpr ⟨h, r, chosen, ⟨inProgress, kind⟩, rfl⟩) (claimFor_end h r _) inProgress
    exact ⟨r, .claim, t, res, p, inProgress, by simp [kind], next, pointer, replied⟩
  · obtain ⟨t, res, p, next, pointer, replied⟩ := settle_claimEnd
      (releaseStep_iff.mpr ⟨h, r, chosen, ⟨inProgress, kind⟩, rfl⟩) (releaseFor_end h r _) inProgress
    exact ⟨r, .release, t, res, p, inProgress, by simp [kind], next, pointer, replied⟩
  · obtain ⟨t, res, p, next, pointer, replied⟩ := settle_claimEnd
      (renewStep_iff.mpr ⟨h, r, chosen, ⟨inProgress, kind⟩, rfl⟩) (renewFor_end h r _) inProgress
    exact ⟨r, .renew, t, res, p, inProgress, by simp [kind], next, pointer, replied⟩
  · obtain ⟨t, res, p, next, pointer, replied⟩ := settle_claimEnd
      (querySlotStep_iff.mpr ⟨h, r, chosen, ⟨inProgress, kind⟩, rfl⟩) (querySlotFor_end h r _) inProgress
    exact ⟨r, .querySlot, t, res, p, inProgress, by simp [kind], next, pointer, replied⟩

/-! ### O19: a refusal changes nothing (R22, R25) -/

theorem chosen_unique {s : State} {g h : HostId} (a : Chosen s g) (b : Chosen s h) : g = h :=
  Option.some.inj (a.2.symm.trans b.2)

/-- A request answered with anything but OK has left everything but the pointer as it was. -/
theorem refused_keeps {s t u : State} {h : HostId} {q : Request} {r : Response}
    (ends : ClaimEnd h (pointAt h s) u) (asked : (s.port h).inProgress = some q) (now : t = u.refreshAtn)
    (held : (t.port h).held = some r) (notOk : r.result ≠ .ok) :
    t.rsc = { s.rsc with pointer := h } ∧ t.ws = s.ws ∧ t.fre = s.fre ∧ t.evu = s.evu ∧ t.pending = s.pending ∧
      OthersKept s t h := by
  subst now
  obtain ⟨res, p, rfl⟩ | ⟨p, v, rfl, frame, -⟩ := ends.ends
  · obtain ⟨-, others⟩ := replied_of_answer (res := res) (p := p) (pointAt_portsKept h s) asked
    exact ⟨by simp, by simp, by simp, by simp, by simp, others⟩
  · obtain ⟨view, -⟩ := replied_of_answer (res := .ok) (p := p) (portsKept_of_ports frame.ports) asked
    exact absurd (congrArg Response.result (Option.some.inj (held.symm.trans (congrArg Port.held view)))) notOk

/-- Settles O19. -/
theorem refusedClaimRequestChangesNothing : Obligations.RefusedClaimRequestChangesNothing := by
  intro s t h c r kinds chosen free ran held notOk
  have taken {o : Option State} {k : Kind} {act : HostId → Request → State → State} (ran : settle s o = .next t)
      (iff : ∀ {u}, o = some u ↔ ∃ h r, Chosen s h ∧ Asked s h k r ∧ u = act h r (pointAt h s))
      (ends : ∀ h r t, ClaimEnd h t (act h r t)) :
      t.rsc = { s.rsc with pointer := h } ∧ t.ws = s.ws ∧ t.fre = s.fre ∧ t.evu = s.evu ∧ t.pending = s.pending ∧
        OthersKept s t h := by
    obtain ⟨u, stepped, now⟩ | ⟨-, rfl⟩ := settle_next ran
    · obtain ⟨g, q, chosen', asked, rfl⟩ := iff.mp stepped
      cases chosen_unique chosen chosen'
      exact refused_keeps (ends h q _) asked.1 now held notOk
    · rw [free] at held; cases held
  rcases kinds with rfl | rfl | rfl
  · exact taken ran claimStep_iff claimFor_end
  · exact taken ran releaseStep_iff releaseFor_end
  · exact taken ran renewStep_iff renewFor_end

end Sys2Proof.Machine
end

section
/-! O17, O18, O20: CLAIM, and the checks of RELEASE and RENEW (R25 to R37). -/

namespace Sys2Proof.Machine
open Sys2Proof.Safety

/-! ### A CLAIM that passes (R2, R30) -/

section
variable (h : HostId) (session : Byte) (a : ClaimArgs) (slots : List Nat) (t : State)

theorem foldl_createRecord_rsc :
    (slots.foldl (createRecord h session a) t).rsc =
      { t.rsc with
        records := t.rsc.records ++ slots.mapIdx fun i x =>
          newRecord h session a (t.rsc.nextId + i) (t.rsc.seq + BitVec.ofNat 16 i) x
        seq := t.rsc.seq + BitVec.ofNat 16 slots.length
        nextId := t.rsc.nextId + slots.length } := by
  induction slots generalizing t with
  | nil => simp
  | cons x slots ih =>
    have step (n : Nat) : t.rsc.seq + 1#16 + BitVec.ofNat 16 n = t.rsc.seq + BitVec.ofNat 16 (n + 1) := by
      rw [BitVec.add_assoc, Nat.add_comm n 1, BitVec.ofNat_add]
    rw [List.foldl_cons, ih, createRecord_rsc]
    simp only [step, List.mapIdx_cons, List.length_cons, List.append_assoc, List.cons_append, List.nil_append,
      Nat.add_zero, BitVec.add_zero]
    simp only [Nat.add_assoc, Nat.add_comm 1]

theorem foldl_createRecord_talk {p : TalkPart} (talk : a.body = .talk p) :
    (slots.foldl (createRecord h session a) t).ws =
      { t.ws with queues := t.ws.queues ++ slots.mapIdx fun i _ => ⟨t.rsc.nextId + i, h, p.depth, []⟩ } := by
  induction slots generalizing t with
  | nil => simp
  | cons x slots ih =>
    have made : (createRecord h session a t x).ws =
        { t.ws with queues := t.ws.queues ++ [⟨t.rsc.nextId, h, p.depth, []⟩] } := by
      simp only [createRecord, talk]
      rfl
    rw [List.foldl_cons, ih, createRecord_rsc, made]
    simp only [List.mapIdx_cons, List.append_assoc, List.cons_append, List.nil_append, Nat.add_zero, Nat.add_assoc,
      Nat.add_comm 1]

theorem foldl_createRecord_listen (listen : a.body = .listen) :
    (slots.foldl (createRecord h session a) t).ws = t.ws := by
  refine List.foldlRecOn (motive := fun u : State => u.ws = t.ws) slots _ rfl fun u soFar x _ => ?_
  simp only [createRecord, listen]
  exact soFar

end

theorem claimFor_accepted {h : HostId} {r : Request} {t : State} {a : ClaimArgs} (read : parseClaim r.payload = some a)
    (passes : claimRefusal t h a = none) :
    claimFor h r t = answer h .ok (be16 t.rsc.seq ++ [(t.port h).session])
      (a.slots.foldl (createRecord h (t.port h).session a) t) := by
  simp only [claimFor, read, passes]

theorem claimFor_refused {h : HostId} {r : Request} {t : State} {a : ClaimArgs} {res : Result} {i : Option Nat}
    (read : parseClaim r.payload = some a) (fails : claimRefusal t h a = some (res, i)) :
    claimFor h r t = answer h res (indexByte i) t := by
  simp only [claimFor, read, fails]

/-- Settles O17. -/
theorem claimCreatesItsRecords : Obligations.ClaimCreatesItsRecords := by
  intro s h r a chosen asked read nodup below room free
  have passes : claimRefusal (pointAt h s) h a = none :=
    claimRefusal_eq_none.mpr ⟨nodup, below, room, fun x m => conflicts_eq_false.mpr (free x m)⟩
  have stepped := claimStep_iff.mpr ⟨h, r, chosen, asked, rfl⟩
  rw [claimFor_accepted read passes] at stepped
  have frame := ClaimFrame.foldl (createRecord_frame h (s.port h).session a) a.slots (pointAt h s)
  obtain ⟨t, next, replied, same⟩ := settle_answer (s := s) stepped (portsKept_of_ports frame.ports) asked.1
  refine ⟨t, next, replied, ?_, fun p talk => ?_, fun listen => ?_, same.fre.trans frame.fre,
    same.evu.trans frame.evu, same.pending.trans frame.pending⟩
  · rw [same.rsc, foldl_createRecord_rsc]; rfl
  · rw [same.ws, foldl_createRecord_talk _ _ _ _ _ talk]; rfl
  · rw [same.ws, foldl_createRecord_listen _ _ _ _ _ listen]; rfl

/-! ### The checks of a CLAIM (R25 to R29) -/

theorem repeatFrom_eq_some {pre post seen : List Nat} {x j : Nat} (nodup : pre.Nodup) (new : ∀ y ∈ pre, y ∉ seen)
    (again : x ∈ seen ∨ x ∈ pre) : repeatFrom seen j (pre ++ x :: post) = some (j + pre.length) := by
  induction pre generalizing seen j with
  | nil =>
    have before : x ∈ seen := again.resolve_right List.not_mem_nil
    simp [repeatFrom, before]
  | cons y pre ih =>
    obtain ⟨fresh, nodup⟩ := List.nodup_cons.mp nodup
    have unseen : y ∉ seen := new y List.mem_cons_self
    rw [List.cons_append, repeatFrom, if_neg unseen, ih nodup, List.length_cons]
    · congr 1; omega
    · intro z m seen'
      rcases List.mem_cons.mp seen' with rfl | seen'
      · exact fresh m
      · exact new z (List.mem_cons_of_mem _ m) seen'
    · rcases again with before | m
      · exact .inl (List.mem_cons_of_mem _ before)
      · rcases List.mem_cons.mp m with rfl | m
        · exact .inl List.mem_cons_self
        · exact .inr m

/-- A list cut at the index i. -/
theorem eq_take_append {l : List Nat} {i : Nat} (low : i < l.length) :
    l = l.take i ++ l[i]! :: l.drop (i + 1) ∧ (l.take i).length = i := by
  rw [getElem!_pos l i low]
  exact ⟨by rw [List.getElem_cons_drop, List.take_append_drop], by rw [List.length_take]; omega⟩

theorem firstRepeat_eq_some {l : List Nat} {i : Nat} (low : i < l.length) (again : l[i]! ∈ l.take i)
    (nodup : (l.take i).Nodup) : firstRepeat l = some i := by
  obtain ⟨cut, length⟩ := eq_take_append low
  rw [firstRepeat]
  conv_lhs => rw [cut]
  rw [repeatFrom_eq_some nodup (fun _ _ => List.not_mem_nil) (.inr again), length, Nat.zero_add]

theorem findIdx?_eq_some_of_take {p : Nat → Bool} {l : List Nat} {i : Nat} (low : i < l.length)
    (yes : p l[i]! = true) (no : ∀ x ∈ l.take i, p x = false) : l.findIdx? p = some i := by
  rw [getElem!_pos l i low] at yes
  refine List.findIdx?_eq_some_iff_getElem.mpr ⟨low, yes, fun j before => ?_⟩
  have m : l[j] ∈ l.take i := List.mem_take_iff_getElem.mpr ⟨j, by omega, rfl⟩
  simp [no _ m]

section
variable {s : State} {h : HostId} {a : ClaimArgs}

theorem claimRefusal_repeat {i : Nat} (first : firstRepeat a.slots = some i) :
    claimRefusal s h a = some (.badArgument, some i) := by
  simp only [claimRefusal, first]

variable (nodup : a.slots.Nodup)
include nodup

theorem claimRefusal_badSlot {i : Nat} (high : a.slots.findIdx? (fun x => decide (s.fre.fmt.slots ≤ x)) = some i) :
    claimRefusal s h a = some (.badSlot, some i) := by
  simp only [claimRefusal, firstRepeat_eq_none.mpr nodup, high]

variable (below : ∀ x ∈ a.slots, x < s.fre.fmt.slots)
include below

omit nodup in
theorem findIdx?_below : a.slots.findIdx? (fun x => decide (s.fre.fmt.slots ≤ x)) = none := by
  simpa [List.findIdx?_eq_none_iff] using below

theorem claimRefusal_limit (full : 32 < recordCount s.rsc.records h + a.slots.length) :
    claimRefusal s h a = some (.claimLimit, some (32 - recordCount s.rsc.records h)) := by
  simp only [claimRefusal, firstRepeat_eq_none.mpr nodup, findIdx?_below below]
  exact if_pos full

theorem claimRefusal_conflict {i : Nat} (room : recordCount s.rsc.records h + a.slots.length ≤ 32)
    (taken : a.slots.findIdx? (conflicts s.rsc.records h a.body.role) = some i) :
    claimRefusal s h a = some (.conflict, some i) := by
  simp only [claimRefusal, firstRepeat_eq_none.mpr nodup, findIdx?_below below, taken]
  exact if_neg (Nat.not_lt.mpr room)

end

/-- Settles O18. -/
theorem claimIsRefusedByItsFirstFailingCheck : Obligations.ClaimIsRefusedByItsFirstFailingCheck := by
  intro s h r chosen asked
  have stepped := claimStep_iff.mpr ⟨h, r, chosen, asked, rfl⟩
  have answered {res : Result} {p : List Byte} (e : claimFor h r (pointAt h s) = answer h res p (pointAt h s)) :
      ∃ t, exec .claim s = .next t ∧ Replied s t h r res p := by
    obtain ⟨t, next, replied, -⟩ := settle_answer (stepped.trans (congrArg some e)) (pointAt_portsKept h s) asked.1
    exact ⟨t, next, replied⟩
  refine ⟨fun bad => answered (by simp only [claimFor, bad]; rfl), fun a read => ?_⟩
  have refused {res : Result} {i : Nat} (fails : claimRefusal (pointAt h s) h a = some (res, some i)) :
      ∃ t, exec .claim s = .next t ∧ Replied s t h r res [nat8 i] := answered (claimFor_refused read fails)
  refine ⟨fun i low again first => refused (claimRefusal_repeat (firstRepeat_eq_some low again first)), fun nodup =>
    ⟨fun i low high first => refused (claimRefusal_badSlot nodup ?_), fun below => ⟨fun full =>
      refused (claimRefusal_limit nodup below full), fun room i low taken first =>
      refused (claimRefusal_conflict nodup below room ?_)⟩⟩⟩
  · exact findIdx?_eq_some_of_take low (decide_eq_true high) fun x m =>
      decide_eq_false (Nat.not_le.mpr (first x m))
  · refine findIdx?_eq_some_of_take low ?_ fun x m => conflicts_eq_false.mpr (first x m)
    rw [← Bool.not_eq_false, conflicts_eq_false]
    obtain ⟨q, m, slot, forward, clash⟩ := taken
    exact fun none => clash.elim (none q m slot forward).1 (none q m slot forward).2

/-! ### The checks of RELEASE and RENEW (R32, R37) -/

theorem keyRefusal_eq {rs : List ClaimRec} {h : HostId} {role : Role} {pre post : List Nat} {x j : Nat}
    (held : ∀ y ∈ pre, (keyForward rs h y role).isSome = true) (none : keyForward rs h x role = none) :
    keyRefusal rs h role j (pre ++ x :: post) =
      some (if keyLeaving rs h x role then .releasing else .noClaim, some (j + pre.length)) := by
  induction pre generalizing j with
  | nil =>
    simp only [List.nil_append, keyRefusal, none, Option.isSome_none, Bool.false_eq_true, if_false]
    exact (apply_ite (fun res => some (res, some j)) _ _ _).symm
  | cons y pre ih =>
    have own := held y List.mem_cons_self
    rw [List.cons_append, keyRefusal, if_pos own, ih fun z m => held z (List.mem_cons_of_mem _ m), List.length_cons]
    congr 3; omega

theorem listRefusal_repeat {rs : List ClaimRec} {h : HostId} {role : Role} {slots : List Nat} {i : Nat}
    (first : firstRepeat slots = some i) : listRefusal rs h role slots = some (.badArgument, some i) := by
  simp only [listRefusal, first]

theorem listRefusal_key {rs : List ClaimRec} {h : HostId} {role : Role} {slots : List Nat} {i : Nat}
    (nodup : slots.Nodup) (low : i < slots.length)
    (held : ∀ x ∈ slots.take i, ∃ q ∈ rs, q.host = h ∧ q.slot = x ∧ q.role = role ∧ q.forward = true)
    (none : ∀ q ∈ rs, q.host = h → q.slot = slots[i]! → q.role = role → q.forward = false) :
    listRefusal rs h role slots =
      some (if keyLeaving rs h slots[i]! role then .releasing else .noClaim, some i) := by
  obtain ⟨cut, length⟩ := eq_take_append low
  have pass : ∀ x ∈ slots.take i, (keyForward rs h x role).isSome = true := by
    intro x m
    obtain ⟨q, mq, host, slot, role', forward⟩ := held x m
    refine List.find?_isSome.mpr ⟨q, mq, ?_⟩
    rw [hasKey_iff.mpr ⟨host, slot, role'⟩, forward]
    rfl
  simp only [listRefusal, firstRepeat_eq_none.mpr nodup]
  conv_lhs => rw [cut]
  rw [keyRefusal_eq pass (keyForward_eq_none.mpr none), length, Nat.zero_add]

theorem releaseFor_refused {h : HostId} {r : Request} {t : State} {a : ReleaseArgs} {res : Result} {i : Option Nat}
    (read : parseRelease r.payload = some a) (fails : listRefusal t.rsc.records h a.role a.slots = some (res, i)) :
    releaseFor h r t = answer h res (indexByte i) t := by
  simp only [releaseFor, read, fails]

theorem renewFor_refused {h : HostId} {r : Request} {t : State} {role : Role} {slots : List Nat} {res : Result}
    {i : Option Nat} (read : parseRenew r.payload = some (role, slots))
    (fails : listRefusal t.rsc.records h role slots = some (res, i)) :
    renewFor h r t = answer h res (indexByte i) t := by
  simp only [renewFor, read, fails]

/-- Settles O20: both requests are refused by the one check of their slot list. -/
theorem keyChecksOfReleaseAndRenew : Obligations.KeyChecksOfReleaseAndRenew := by
  intro s h r chosen
  have answered {o : Option State} {u : State} {res : Result} {p : List Byte} (e : o = some u)
      (asked : (s.port h).inProgress = some r) (ends : u = answer h res p (pointAt h s)) :
      ∃ t, settle s o = .next t ∧ Replied s t h r res p := by
    subst ends
    obtain ⟨t, next, replied, -⟩ := settle_answer e (pointAt_portsKept h s) asked
    exact ⟨t, next, replied⟩
  have released (asked : Asked s h .release r) := releaseStep_iff.mpr ⟨h, r, chosen, asked, rfl⟩
  have renewed (asked : Asked s h .renew r) := renewStep_iff.mpr ⟨h, r, chosen, asked, rfl⟩
  refine ⟨fun asked bad => answered (released asked) asked.1 (by simp only [releaseFor, bad]; rfl),
    fun asked bad => answered (renewed asked) asked.1 (by simp only [renewFor, bad]; rfl),
    fun role slots c i which low => ?_⟩
  have refused {res : Result} (fails : listRefusal s.rsc.records h role slots = some (res, some i)) :
      ∃ t, exec c s = .next t ∧ Replied s t h r res [nat8 i] := by
    obtain ⟨rfl, asked, mode, read⟩ | ⟨rfl, asked, read⟩ := which
    · exact answered (released asked) asked.1 (releaseFor_refused (t := pointAt h s) (a := ⟨role, mode, slots⟩) read fails)
    · exact answered (renewed asked) asked.1 (renewFor_refused (t := pointAt h s) read fails)
  refine ⟨fun again first => refused (listRefusal_repeat (firstRepeat_eq_some low again first)),
    fun nodup held none => ?_⟩
  have fails := listRefusal_key nodup low held none
  rw [keyLeaving_eq none] at fails
  refine ⟨fun stands => refused ?_, fun absent => refused ?_⟩
  · rw [fails, decide_eq_true stands]; rfl
  · have gone : ¬∃ q ∈ s.rsc.records, q.host = h ∧ q.slot = slots[i]! ∧ q.role = role :=
      fun ⟨q, m, key⟩ => absent q m key
    rw [fails, decide_eq_false gone]; rfl

end Sys2Proof.Machine
end

section
/-! O21, O22: an accepted RELEASE and an accepted RENEW (R33 to R36, R38). -/

namespace Sys2Proof.Machine
open Sys2Proof.Safety

/-! ### The records a slot list names -/

/-- Each slot of the list names a record of the caller in the forward view. -/
def Names (rs : List ClaimRec) (h : HostId) (role : Role) (slots : List Nat) (named : Nat → ClaimRec) : Prop :=
  ∀ x ∈ slots, named x ∈ rs ∧ (named x).host = h ∧ (named x).slot = x ∧ (named x).role = role ∧
    (named x).forward = true

section
variable {rs : List ClaimRec} {h : HostId} {role : Role} {slots : List Nat} {named : Nat → ClaimRec}
  (names : Names rs h role slots named)
include names

theorem Names.found {x : Nat} (law : KeyLaw rs) (m : x ∈ slots) : keyForward rs h x role = some (named x) := by
  obtain ⟨mem, host, slot, isRole, forward⟩ := names x m
  exact keyForward_eq_some law mem (hasKey_iff.mpr ⟨host, slot, isRole⟩) forward

theorem Names.passes (law : KeyLaw rs) (nodup : slots.Nodup) : listRefusal rs h role slots = none := by
  have all : ∀ (l : List Nat) (i : Nat), (∀ x ∈ l, x ∈ slots) → keyRefusal rs h role i l = none := by
    intro l
    induction l with
    | nil => exact fun _ _ => rfl
    | cons x l ih =>
      intro i sub
      rw [keyRefusal, names.found law (sub x List.mem_cons_self)]
      exact ih (i + 1) fun y m => sub y (List.mem_cons_of_mem _ m)
  simp only [listRefusal, firstRepeat_eq_none.mpr nodup, all slots 0 fun _ => id]

/-- What leaves the records of the later slots alone leaves them named. -/
theorem Names.tail {x : Nat} {rest : List Nat} {rs' : List ClaimRec} (cons : slots = x :: rest)
    (nodup : slots.Nodup) (kept : ∀ q ∈ rs, q ≠ named x → q ∈ rs') : Names rs' h role rest named := by
  subst cons
  intro y m
  obtain ⟨mem, host, slot, rest⟩ := names y (List.mem_cons_of_mem _ m)
  refine ⟨kept _ mem fun same => ?_, host, slot, rest⟩
  have equal : y = x := by rw [← slot, same, (names x List.mem_cons_self).2.2.1]
  exact (List.nodup_cons.mp nodup).1 (equal ▸ m)

end

/-! ### RELEASE -/

/-- What a release of the records named makes of a record: withdrawn, turned, or left (R33, R34). -/
def released (mode : ReleaseMode) (ns : List ClaimRec) (q : ClaimRec) : Option ClaimRec :=
  if q ∈ ns then if q.state = .pendingAdd then none else some { q with state := .pendingRelease mode } else some q

theorem released_of_leaving {mode mode' : ReleaseMode} {ns : List ClaimRec} {q : ClaimRec}
    (forward : ∀ n ∈ ns, n.forward = true) (left : q.state = .pendingRelease mode') : released mode ns q = some q := by
  refine if_neg fun m => ?_
  have := forward q m
  simp [ClaimRec.forward, left] at this

theorem released_cons {mode : ReleaseMode} {n : ClaimRec} {ns : List ClaimRec} (forward : ∀ m ∈ ns, m.forward = true)
    (q : ClaimRec) : (released mode [n] q).bind (released mode ns) = released mode (n :: ns) q := by
  by_cases same : q = n
  · by_cases add : q.state = .pendingAdd
    · simp [released, same ▸ add, same]
    · have left : released mode [n] q = some { q with state := .pendingRelease mode } := by
        simp [released, same ▸ add, same]
      rw [left, Option.bind_some, released_of_leaving forward rfl]
      simp [released, same ▸ add, same]
  · simp [released, same]

theorem filterMap_released (mode : ReleaseMode) (ns rs : List ClaimRec) :
    rs.filterMap (released mode ns) =
      (rs.filter fun q => !decide (q ∈ ns ∧ q.state = .pendingAdd)).map fun q =>
        if q ∈ ns then { q with state := .pendingRelease mode } else q := by
  induction rs with
  | nil => rfl
  | cons q rs ih =>
    by_cases m : q ∈ ns <;> by_cases add : q.state = .pendingAdd <;> simp [released, m, add, ih]

/-- What the release of a record asks of the WS (R33, R35). -/
def releaseAsks (mode : ReleaseMode) (q : ClaimRec) : List QueueAsk :=
  if q.state = .pendingAdd then if q.isTalk then [.ending q.id] else []
  else if q.isTalk && decide (mode = .discard) then [.flush q.id] else []

section
variable {h : HostId} {role : Role} {mode : ReleaseMode} {t : State} {x : Nat} {r : ClaimRec}
  (found : keyForward t.rsc.records h x role = some r)
include found

theorem releaseSlot_ws :
    (releaseSlot h role mode t x).ws = { t.ws with asks := t.ws.asks ++ releaseAsks mode r } := by
  unfold releaseSlot releaseAsks
  rw [found]
  dsimp only
  split <;> rfl

theorem releaseSlot_records {slots nextId : Nat} (law : RecordsLaw t.rsc.records slots nextId) :
    (releaseSlot h role mode t x).rsc =
      { t.rsc with records := t.rsc.records.filterMap (released mode [r]) } := by
  have own {q : ClaimRec} (m : q ∈ t.rsc.records) : q.id = r.id ↔ q = r :=
    ⟨record_eq_of_id law m (List.mem_of_find?_eq_some found), congrArg ClaimRec.id⟩
  rw [releaseSlot_rsc, found]
  dsimp only
  congr 1
  split
  · rename_i add
    rw [← List.filterMap_eq_filter]
    refine List.filterMap_congr fun q m => ?_
    by_cases same : q = r <;> simp [Option.guard, released, own m, same, add]
  · rename_i force
    rw [updateRec, ← List.filterMap_eq_map]
    refine List.filterMap_congr fun q m => ?_
    by_cases same : q = r <;> simp [released, own m, same, force]

end

section
variable {h : HostId} {role : Role} {mode : ReleaseMode} {slots : List Nat} {named : Nat → ClaimRec} {s t : State}

theorem foldl_releaseSlot (kept : StoreKept s t) (names : Names t.rsc.records h role slots named)
    (nodup : slots.Nodup) :
    (slots.foldl (releaseSlot h role mode) t).rsc =
        { t.rsc with records := t.rsc.records.filterMap (released mode (slots.map named)) } ∧
      (slots.foldl (releaseSlot h role mode) t).ws =
        { t.ws with asks := t.ws.asks ++ slots.flatMap fun x => releaseAsks mode (named x) } := by
  induction slots generalizing t with
  | nil =>
    have stays : released mode [] = some := funext fun q => if_neg List.not_mem_nil
    simp [stays]
  | cons x rest ih =>
    have found := names.found kept.store.key List.mem_cons_self
    have rsc := releaseSlot_records (mode := mode) found kept.store
    have ws := releaseSlot_ws (role := role) (mode := mode) found
    have left : Names (releaseSlot h role mode t x).rsc.records h role rest named := by
      rw [rsc]
      refine names.tail rfl nodup fun q m other => List.mem_filterMap.mpr ⟨q, m, ?_⟩
      exact if_neg fun one => other (List.mem_singleton.mp one)
    obtain ⟨rscRest, wsRest⟩ := ih (storeKept_releaseSlot kept) left (List.nodup_cons.mp nodup).2
    rw [List.foldl_cons, rscRest, wsRest, rsc, ws]
    constructor
    · dsimp only
      rw [List.filterMap_filterMap, List.map_cons]
      congr 1
      refine List.filterMap_congr fun q _ => released_cons (fun n m => ?_) q
      obtain ⟨y, my, rfl⟩ := List.mem_map.mp m
      exact (names y (List.mem_cons_of_mem _ my)).2.2.2.2
    · simp

end

theorem releaseFor_accepted {h : HostId} {r : Request} {t : State} {a : ReleaseArgs}
    (read : parseRelease r.payload = some a) (passes : listRefusal t.rsc.records h a.role a.slots = none) :
    releaseFor h r t = answer h .ok (nat8 a.slots.length :: a.slots.map (releaseOutcome t.rsc.records h a.role))
      (a.slots.foldl (releaseSlot h a.role a.mode) t) := by
  simp only [releaseFor, read, passes]

/-- Settles O21, slot by slot: a release of one record leaves the others named. -/
theorem releaseWithdrawsOrBeginsRelease : Obligations.ReleaseWithdrawsOrBeginsRelease := by
  intro s h r a named law chosen asked read nodup names
  have key := law.store.key
  have listed : Names s.rsc.records h a.role a.slots named := names
  have stepped := releaseStep_iff.mpr ⟨h, r, chosen, asked, rfl⟩
  rw [releaseFor_accepted (t := pointAt h s) read (listed.passes key nodup)] at stepped
  have frame := ClaimFrame.foldl (releaseSlot_frame h a.role a.mode) a.slots (pointAt h s)
  obtain ⟨t, next, replied, same⟩ := settle_answer (s := s) stepped (portsKept_of_ports frame.ports) asked.1
  obtain ⟨rsc, ws⟩ := foldl_releaseSlot (mode := a.mode) (storeKept_pointAt law h) listed nodup
  refine ⟨t, next, ?_, ?_, ?_, same.fre.trans frame.fre, same.evu.trans frame.evu, same.pending.trans frame.pending⟩
  · refine Eq.mpr (congrArg (Replied s t h r .ok) (congrArg _ ?_)) replied
    refine List.map_congr_left fun x m => ?_
    simp only [releaseOutcome, pointAt_rsc, listed.found key m]
  · rw [same.rsc, rsc, filterMap_released]; rfl
  · rw [same.ws, ws]
    refine congrArg (fun asks => { s.ws with asks := s.ws.asks ++ asks }) (List.flatMap_congr fun x m => ?_)
    obtain ⟨-, -, -, role, -⟩ := names x m
    rw [releaseAsks, ClaimRec.isTalk, role]
    cases a.role <;> simp

/-! ### RENEW -/

/-- What a renewal of the records named makes of a record (R38). -/
def renewedOf (ns : List ClaimRec) (q : ClaimRec) : ClaimRec := if q ∈ ns then q.renewed else q

theorem renewed_renewed (q : ClaimRec) : q.renewed.renewed = q.renewed := by
  by_cases leased : q.state = .active ∧ q.lease ≠ 0#16 <;> simp [ClaimRec.renewed, leased]

theorem renewedOf_cons (n : ClaimRec) (ns : List ClaimRec) (q : ClaimRec) :
    renewedOf ns (renewedOf [n] q) = renewedOf (n :: ns) q := by
  by_cases same : q = n
  · have twice : renewedOf ns q.renewed = q.renewed := by
      unfold renewedOf
      split
      · exact renewed_renewed q
      · rfl
    simp only [renewedOf, same, List.mem_cons, true_or, if_true] at twice ⊢
    exact twice
  · simp [renewedOf, same]

theorem renewSlot_records {h : HostId} {role : Role} {t : State} {x : Nat} {r : ClaimRec} {slots nextId : Nat}
    (law : RecordsLaw t.rsc.records slots nextId) (found : keyForward t.rsc.records h x role = some r) :
    renewSlot h role t x = t.onRsc fun c => { c with records := t.rsc.records.map (renewedOf [r]) } := by
  have own {q : ClaimRec} (m : q ∈ t.rsc.records) : q.id = r.id ↔ q = r :=
    ⟨record_eq_of_id law m (List.mem_of_find?_eq_some found), congrArg ClaimRec.id⟩
  have map : updateRec r.id ClaimRec.renewed t.rsc.records = t.rsc.records.map (renewedOf [r]) :=
    List.map_congr_left fun q m => by by_cases same : q = r <;> simp [renewedOf, own m, same]
  rw [← map]
  simp only [renewSlot, found]
  rfl

theorem foldl_renewSlot {h : HostId} {role : Role} {slots : List Nat} {named : Nat → ClaimRec} {s t : State}
    (kept : StoreKept s t) (names : Names t.rsc.records h role slots named) (nodup : slots.Nodup) :
    slots.foldl (renewSlot h role) t =
      t.onRsc fun c => { c with records := t.rsc.records.map (renewedOf (slots.map named)) } := by
  induction slots generalizing t with
  | nil =>
    have stays : renewedOf [] = id := funext fun q => if_neg List.not_mem_nil
    rw [List.map_nil, stays, List.map_id]
    rfl
  | cons x rest ih =>
    have step := renewSlot_records kept.store (names.found kept.store.key List.mem_cons_self)
    have left : Names (renewSlot h role t x).rsc.records h role rest named := by
      rw [step]
      refine names.tail rfl nodup fun q m other => List.mem_map.mpr ⟨q, m, ?_⟩
      exact if_neg fun one => other (List.mem_singleton.mp one)
    rw [List.foldl_cons, ih (storeKept_renewSlot kept) left (List.nodup_cons.mp nodup).2, step, List.map_cons]
    simp only [State.onRsc, List.map_map]
    congr 3
    exact funext fun q => renewedOf_cons _ _ q

theorem renewFor_accepted {h : HostId} {r : Request} {t : State} {role : Role} {slots : List Nat}
    (read : parseRenew r.payload = some (role, slots)) (passes : listRefusal t.rsc.records h role slots = none) :
    renewFor h r t = answer h .ok (nat8 slots.length :: slots.flatMap (renewOutcome t.rsc.records h role))
      (slots.foldl (renewSlot h role) t) := by
  simp only [renewFor, read, passes]

/-- Settles O22. -/
theorem renewRestartsTheLease : Obligations.RenewRestartsTheLease := by
  intro s h r role slots named law chosen asked read nodup names
  have key := law.store.key
  have listed : Names s.rsc.records h role slots named := names
  have stepped := renewStep_iff.mpr ⟨h, r, chosen, asked, rfl⟩
  rw [renewFor_accepted (t := pointAt h s) read (listed.passes key nodup),
    foldl_renewSlot (storeKept_pointAt law h) listed nodup] at stepped
  obtain ⟨t, next, replied, same⟩ := settle_answer (s := s) stepped (portsKept_of_ports rfl) asked.1
  refine ⟨t, next, ?_, ?_, same.ws, same.fre, same.evu, same.pending⟩
  · refine Eq.mpr (congrArg (Replied s t h r .ok) (congrArg _ ?_)) replied
    refine List.flatMap_congr fun x m => ?_
    simp only [renewOutcome, pointAt_rsc, listed.found key m]
    rfl
  · rw [same.rsc]
    refine congrArg (fun records => { s.rsc with pointer := h, records := records }) (List.map_congr_left fun q _ => ?_)
    by_cases m : q ∈ slots.map named
    · simp only [renewedOf, ClaimRec.renewed, m, if_true, true_and]
    · simp only [renewedOf, m, if_false, false_and]

end Sys2Proof.Machine
end

section
/-! O23: QUERY_SLOT (R42, R43, Table 29). -/

namespace Sys2Proof.Machine
open Sys2Proof.Safety

theorem isTalk_slot (slot : Nat) (P : ClaimRec → Prop) [DecidablePred P] :
    (fun q : ClaimRec => q.isTalk && decide (q.slot = slot) && decide (P q)) =
      fun q => decide (q.role = .talk ∧ q.slot = slot ∧ P q) := by
  funext q
  simp [ClaimRec.isTalk, Bool.and_assoc]

theorem isListen_slot (slot : Nat) :
    (fun q : ClaimRec => !q.isTalk && decide (q.slot = slot)) = fun q => decide (q.role = .listen ∧ q.slot = slot) := by
  funext q
  cases role : q.role <;> simp [ClaimRec.isTalk, role]

theorem oneByte_eq_some {p : List Byte} {b : Byte} : oneByte p = some b ↔ p = [b] := by
  rcases p with _ | ⟨c, _ | ⟨d, p⟩⟩ <;> simp [oneByte]

theorem summaryOf_eq (qs : List TxQueue) (o : Option ClaimRec) :
    summaryOf qs o = o.toList.flatMap fun q => summaryOf qs (some q) := by
  cases o <;> simp [summaryOf]

theorem slotPayload_eq (s : State) (slot : Nat) :
    slotPayload s slot =
      [nat8 slot, bitAt (inForceTalker s.rsc.records slot).isSome 0 |||
        bitAt (arrivingTalker s.rsc.records slot).isSome 1] ++
      ((inForceTalker s.rsc.records slot).toList ++ (arrivingTalker s.rsc.records slot).toList).flatMap
        (fun q => summaryOf s.ws.queues (some q)) ++
      nat8 (s.rsc.records.filter fun q => !q.isTalk && decide (q.slot = slot)).length ::
        (s.rsc.records.filter fun q => !q.isTalk && decide (q.slot = slot)).flatMap listenerEntry := by
  rw [slotPayload, summaryOf_eq _ (inForceTalker _ _), summaryOf_eq _ (arrivingTalker _ _), List.flatMap_append,
    ← List.append_assoc]

/-- Settles O23. -/
theorem querySlotReportsTheStore : Obligations.QuerySlotReportsTheStore := by
  intro s h r chosen asked
  have stepped := querySlotStep_iff.mpr ⟨h, r, chosen, asked, rfl⟩
  have ends {res : Result} {p : List Byte} (e : querySlotFor h r (pointAt h s) = answer h res p (pointAt h s)) :
      ∃ t, exec .querySlot s = .next t ∧ Replied s t h r res p ∧ t.rsc = { s.rsc with pointer := h } ∧
        t.ws = s.ws ∧ t.fre = s.fre ∧ t.evu = s.evu ∧ t.pending = s.pending := by
    obtain ⟨t, next, replied, same⟩ := settle_answer (stepped.trans (congrArg some e)) (pointAt_portsKept h s) asked.1
    exact ⟨t, next, replied, same.rsc, same.ws, same.fre, same.evu, same.pending⟩
  cases one : oneByte r.payload with
  | none =>
    obtain ⟨t, next, replied, rsc, ws, fre, evu, pending⟩ :=
      ends (res := .badArgument) (p := []) (by simp only [querySlotFor, one])
    refine ⟨t, _, _, next, replied, rsc, ws, fre, evu, pending, fun _ => ⟨rfl, rfl⟩, fun b e => ?_,
      fun b _ _ _ e => ?_⟩ <;> simp [oneByte, e] at one
  | some b =>
    have payload := oneByte_eq_some.mp one
    have only {c : Byte} (e : r.payload = [c]) : c = b := List.singleton_inj.mp (e.symm.trans payload)
    by_cases high : Config.mapSlots ≤ b.toNat
    · obtain ⟨t, next, replied, rsc, ws, fre, evu, pending⟩ :=
        ends (res := .badSlot) (p := []) (by simp only [querySlotFor, one, high, if_true])
      refine ⟨t, _, _, next, replied, rsc, ws, fre, evu, pending, fun long => absurd (congrArg List.length payload) long,
        fun _ _ _ => ⟨rfl, rfl⟩, fun c _ _ _ e low => ?_⟩
      rw [only e] at low
      exact absurd (high.trans low) (by decide)
    · obtain ⟨t, next, replied, rsc, ws, fre, evu, pending⟩ :=
        ends (res := .ok) (p := slotPayload s b.toNat) (by simp only [querySlotFor, one, high, if_false]; rfl)
      refine ⟨t, _, _, next, replied, rsc, ws, fre, evu, pending, fun long => absurd (congrArg List.length payload) long,
        fun c e out => absurd ?_ high, fun c inForce arriving listeners e low force add listen => ⟨rfl, ?_⟩⟩
      · rw [only e] at out
        exact out
      · cases only e
        rw [slotPayload_eq, inForceTalker, arrivingTalker, isTalk_slot, isTalk_slot, isListen_slot, ← force, ← add,
          ← listen, nat8_toNat_eq]
        rfl

end Sys2Proof.Machine
end

section
/-! O26, O27, O30: the boundary procedure on the store (R44 to R56). -/

namespace Sys2Proof.Machine
open Sys2Proof.Safety

/-! ### The model's tests of a record are the spec's -/

theorem releaseComplete_eq (qs : List TxQueue) : releaseComplete qs = removedAt qs := by
  funext r
  unfold releaseComplete removedAt leaving
  cases state : r.state with
  | pendingRelease mode => cases mode <;> simp [Bool.or_and_distrib_left]
  | pendingAdd => simp
  | active => simp

theorem expires_eq : ClaimRec.expires = ranOut := by
  funext r
  simp [ClaimRec.expires, ClaimRec.leaseCounts, ranOut, Bool.and_assoc]

theorem countedDown_eq (r : ClaimRec) :
    r.countedDown = if r.state = .pendingAdd ∨ r.lease = 0#16 then r
      else { r with remaining := r.remaining.map fun n => n - 1#16 } := by
  by_cases add : r.state = .pendingAdd <;> by_cases lease : r.lease = 0#16 <;>
    simp [ClaimRec.countedDown, ClaimRec.leaseCounts, add, lease]

theorem countedDown_of_pendingAdd {r : ClaimRec} (add : r.state = .pendingAdd) : r.countedDown = r := by
  rw [countedDown_eq, if_pos (.inl add)]

theorem countedDown_id (r : ClaimRec) : r.countedDown.id = r.id := by
  rw [countedDown_eq]
  split <;> rfl

theorem countedDown_slot (r : ClaimRec) : r.countedDown.slot = r.slot := by
  rw [countedDown_eq]
  split <;> rfl

theorem survives_of_pendingAdd {qs : List TxQueue} {r : ClaimRec} (add : r.state = .pendingAdd) :
    survives qs r = true := by
  simp [survives, removedAt, leaving, ranOut, add]

/-! ### The store a procedure leaves -/

/-- The records left by removal and the lease step (R46 to R50). -/
def carried (qs : List TxQueue) (rs : List ClaimRec) : List ClaimRec :=
  (rs.filter (survives qs)).map ClaimRec.countedDown

theorem leased_removed (qs : List TxQueue) (rs : List ClaimRec) :
    leased (rs.filter fun r => !releaseComplete qs r) = carried qs rs := by
  rw [leased, List.filter_filter, releaseComplete_eq, expires_eq, carried]
  exact congrArg _ (List.filter_congr fun r _ => Bool.and_comm ..)

theorem runProcedure_records (k : Word) (qs : List TxQueue) (rs : List ClaimRec) :
    (runProcedure k qs rs).records = (carried qs rs).map (adoptedIn (carried qs rs)) := by
  rw [← leased_removed]
  rfl

/-- More than one of a list without repetition meets p exactly where another than a given one does. -/
theorem two_le_countP {α β : Type} {f : α → β} {p : α → Bool} {l : List α} {x : α} (nodup : (l.map f).Nodup)
    (m : x ∈ l) (meets : p x = true) : 2 ≤ l.countP p ↔ ∃ y ∈ l, f y ≠ f x ∧ p y = true := by
  obtain ⟨a, b, rfl⟩ := List.append_of_mem m
  have other (y : α) : (y ∈ a ∨ y ∈ b) ↔ y ∈ a ++ x :: b ∧ f y ≠ f x := by
    rw [List.map_append, List.map_cons, List.nodup_append] at nodup
    obtain ⟨-, nodupB, apart⟩ := nodup
    obtain ⟨notB, -⟩ := List.nodup_cons.mp nodupB
    constructor
    · rintro (my | my)
      · exact ⟨List.mem_append_left _ my, apart _ (List.mem_map_of_mem my) _ List.mem_cons_self⟩
      · exact ⟨List.mem_append_right _ (List.mem_cons_of_mem _ my), fun same => notB (same ▸ List.mem_map_of_mem my)⟩
    · rintro ⟨my, differs⟩
      rcases List.mem_append.mp my with my | my
      · exact .inl my
      · exact .inr ((List.mem_cons.mp my).resolve_left fun same => differs (congrArg f same))
  have rest : 2 ≤ (a ++ x :: b).countP p ↔ 0 < (a ++ b).countP p := by
    rw [List.countP_append, List.countP_cons_of_pos meets, List.countP_append]
    omega
  rw [rest, List.countP_pos_iff]
  simp only [List.mem_append, other, and_assoc]

section
variable {qs : List TxQueue} {rs : List ClaimRec} (unique : (rs.map ClaimRec.id).Nodup)
include unique

/-- R53: a record waits exactly while another TALK record that survives stands on its slot. -/
theorem heldBack_carried {r : ClaimRec} (m : r ∈ rs) (stays : survives qs r = true) :
    heldBack (carried qs rs) r = standsBehind qs rs r := by
  unfold heldBack standsBehind
  cases talk : r.isTalk with
  | false => rfl
  | true =>
    have nodup : ((rs.filter (survives qs)).map ClaimRec.id).Nodup :=
      unique.sublist (List.filter_sublist.map ClaimRec.id)
    have count : talkersOn (carried qs rs) r.slot =
        (rs.filter (survives qs)).countP fun q => q.isTalk && decide (q.slot = r.slot) := by
      rw [talkersOn, carried, List.countP_map]
      exact List.countP_congr fun q _ => by
        rw [Function.comp_apply, countedDown_isTalk, countedDown_slot]
    rw [Bool.true_and, Bool.true_and, Bool.eq_iff_iff, decide_eq_true_iff, count,
      two_le_countP nodup (List.mem_filter.mpr ⟨m, stays⟩) (by simp [talk])]
    simp only [List.mem_filter, List.any_eq_true, Bool.and_eq_true, decide_eq_true_eq]
    exact ⟨fun ⟨q, ⟨mq, sq⟩, other, tq, slot⟩ => ⟨q, mq, ⟨⟨other, tq⟩, slot⟩, sq⟩,
      fun ⟨q, mq, ⟨⟨other, tq⟩, slot⟩, sq⟩ => ⟨q, ⟨mq, sq⟩, other, tq, slot⟩⟩

theorem isAdopted_carried {r : ClaimRec} (m : r ∈ rs) (stays : survives qs r = true) :
    isAdopted (carried qs rs) r.countedDown = (decide (r.state = .pendingAdd) && !standsBehind qs rs r) := by
  rw [isAdopted, countedDown_state]
  by_cases add : r.state = .pendingAdd
  · rw [countedDown_of_pendingAdd add, heldBack_carried unique m stays]
  · simp [add]

theorem adoptedIn_carried {r : ClaimRec} (m : r ∈ rs) (stays : survives qs r = true) :
    adoptedIn (carried qs rs) r.countedDown = afterBoundary qs rs r := by
  rw [adoptedIn, isAdopted_carried unique m stays, afterBoundary]
  by_cases add : r.state = .pendingAdd
  · rw [if_pos add, countedDown_of_pendingAdd add]
    cases standsBehind qs rs r with
    | true => simp
    | false =>
      cases body : r.body <;> simp [add, ClaimRec.adopted, ClaimRec.onTalk, freshTraffic, body]
  · rw [if_neg add, countedDown_eq]
    simp [add]

theorem runProcedure_records_after (k : Word) :
    (runProcedure k qs rs).records = (rs.filter (survives qs)).map (afterBoundary qs rs) := by
  rw [runProcedure_records]
  refine List.map_map.trans (List.map_congr_left fun r m => ?_)
  obtain ⟨m, stays⟩ := List.mem_filter.mp m
  exact adoptedIn_carried unique m stays

end

/-! ### The requests to the WS (R56) -/

theorem flatMap_filter_of {α β : Type} {p : α → Bool} {f : α → List β} (l : List α)
    (none : ∀ x ∈ l, p x = false → f x = []) : (l.filter p).flatMap f = l.flatMap f := by
  induction l with
  | nil => rfl
  | cons x l ih =>
    have ih := ih fun y m => none y (List.mem_cons_of_mem _ m)
    cases meets : p x with
    | true => rw [List.filter_cons_of_pos meets, List.flatMap_cons, List.flatMap_cons, ih]
    | false =>
      rw [List.filter_cons_of_neg (by simp [meets]), List.flatMap_cons, none x List.mem_cons_self meets, ih]
      rfl

theorem runProcedure_asks (k : Word) (qs : List TxQueue) (rs : List ClaimRec) :
    (runProcedure k qs rs).asks =
      (rs.filter fun r => removedAt qs r && r.isTalk).map (fun r => .ending r.id) ++
        (rs.filter fun r => !removedAt qs r && ranOut r && r.isTalk).flatMap
          fun r => [.flush r.id, .ending r.id] := by
  have endings : endingsOf (rs.filter (releaseComplete qs)) =
      (rs.filter fun r => removedAt qs r && r.isTalk).map fun r => .ending r.id := by
    rw [endingsOf, List.filter_filter, releaseComplete_eq]
    exact congrArg _ (List.filter_congr fun r _ => Bool.and_comm ..)
  have expired : ((rs.filter fun r => !releaseComplete qs r).filter ClaimRec.expires).flatMap expiryAsks =
      (rs.filter fun r => !removedAt qs r && ranOut r && r.isTalk).flatMap fun r => [.flush r.id, .ending r.id] := by
    rw [List.filter_filter, releaseComplete_eq, expires_eq, ← flatMap_filter_of (p := ClaimRec.isTalk),
      List.filter_filter]
    · rw [List.filter_congr fun r _ => show (r.isTalk && (ranOut r && !removedAt qs r)) =
        (!removedAt qs r && ranOut r && r.isTalk) by rw [Bool.and_comm, Bool.and_comm (ranOut r)]]
      refine List.flatMap_congr fun r m => ?_
      have talk := (Bool.and_eq_true .. ▸ (List.mem_filter.mp m).2).2
      rw [expiryAsks, if_pos talk]
    · intro r _ listen
      rw [expiryAsks, listen]
      rfl
  rw [← endings, ← expired]
  rfl

/-! ### The map (R16, R55) -/

theorem leaving_adoptedIn (l : List ClaimRec) (r : ClaimRec) : leaving (adoptedIn l r) = leaving r := by
  unfold adoptedIn
  split
  · rename_i adopted
    simp [leaving, isAdopted_pendingAdd adopted, ClaimRec.adopted]
  · rfl

/-- No record that the removal step would delete is left (R46). -/
theorem runProcedure_stays {k : Word} {qs : List TxQueue} {rs : List ClaimRec} {r : ClaimRec}
    (m : r ∈ (runProcedure k qs rs).records) : leaving r = false := by
  rw [runProcedure_records] at m
  obtain ⟨x, mx, rfl⟩ := List.mem_map.mp m
  obtain ⟨q, mq, rfl⟩ := List.mem_map.mp mx
  have stays := (List.mem_filter.mp mq).2
  rw [leaving_adoptedIn, countedDown_leaving]
  cases gone : leaving q with
  | false => rfl
  | true => simp [survives, removedAt, gone] at stays

section
variable {rs : List ClaimRec} {slot : Nat} (id : Nat)

theorem mapEntryOf_talker (law : TalkLaw rs) :
    (mapEntryOf rs slot).talker = some id ↔
      ∃ r ∈ rs, r.id = id ∧ r.role = .talk ∧ r.slot = slot ∧ r.state ≠ .pendingAdd := by
  have placed (r : ClaimRec) : (r.isTalk && decide (r.slot = slot) && r.placed) =
      (r.isTalk && decide (r.slot = slot) && inForce r) := by
    cases talk : r.isTalk with
    | false => rfl
    | true =>
      cases state : r.state with
      | pendingRelease mode => cases mode <;> simp [ClaimRec.placed, inForce, state, talk]
      | pendingAdd => simp [ClaimRec.placed, inForce, state]
      | active => simp [ClaimRec.placed, inForce, state]
  simp only [mapEntryOf, placed]
  rw [Option.map_eq_some_iff]
  constructor
  · rintro ⟨r, found, rfl⟩
    have meets := List.find?_some found
    simp only [ClaimRec.isTalk, inForce, Bool.and_eq_true, decide_eq_true_eq] at meets
    exact ⟨r, List.mem_of_find?_eq_some found, rfl, meets.1.1, meets.1.2, meets.2⟩
  · rintro ⟨r, m, same, talk, own, state⟩
    have meets : (r.isTalk && decide (r.slot = slot) && inForce r) = true := by
      simp [ClaimRec.isTalk, inForce, talk, own, state]
    cases found : rs.find? fun r => r.isTalk && decide (r.slot = slot) && inForce r with
    | none => exact absurd meets (List.find?_eq_none.mp found r m)
    | some q =>
      exact ⟨q, rfl, by rw [eq_of_countP_le_one (law slot).2 (List.mem_of_find?_eq_some found)
        (List.find?_some (p := fun r : ClaimRec => r.isTalk && decide (r.slot = slot) && inForce r) found)
        m meets, same]⟩

theorem mapEntryOf_listeners (stay : ∀ r ∈ rs, leaving r = false) :
    id ∈ (mapEntryOf rs slot).listeners ↔
      ∃ r ∈ rs, r.id = id ∧ r.role = .listen ∧ r.slot = slot ∧ r.state = .active := by
  have placed (r : ClaimRec) (m : r ∈ rs) (listen : r.role = .listen) : r.placed = true ↔ r.state = .active := by
    have stays := stay r m
    cases state : r.state with
    | pendingRelease mode => cases mode <;> simp [leaving, state, ClaimRec.isTalk, listen] at stays
    | pendingAdd => simp [ClaimRec.placed, state]
    | active => simp [ClaimRec.placed, state]
  simp only [mapEntryOf, List.mem_map, List.mem_filter, Bool.and_eq_true, decide_eq_true_eq]
  constructor
  · rintro ⟨r, ⟨m, ⟨listen, own⟩, isPlaced⟩, rfl⟩
    have role : r.role = .listen := by
      cases role : r.role <;> simp [ClaimRec.isTalk, role] at listen ⊢
    exact ⟨r, m, rfl, role, own, (placed r m role).mp isPlaced⟩
  · rintro ⟨r, m, rfl, role, own, active⟩
    exact ⟨r, ⟨m, ⟨by simp [ClaimRec.isTalk, role], own⟩, (placed r m role).mpr active⟩, rfl⟩

end

theorem slotMapOf_get (rs : List ClaimRec) {slot : Nat} (low : slot < 64) :
    (slotMapOf rs)[slot]? = some (mapEntryOf rs slot) := by
  rw [slotMapOf, List.getElem?_map, List.getElem?_range (n := Config.mapSlots) low]
  rfl

/-- Settles O26. -/
theorem boundaryProcedureRecordByRecord : Obligations.BoundaryProcedureRecordByRecord := by
  intro s k ks law quiet idle waiting
  have stepped := boundaryStep_some.mpr ⟨quiet, .inr ⟨idle, k, ks, waiting, rfl⟩⟩
  obtain ⟨t, next, ports, same⟩ := settle_kept (s := s) stepped (portsKept_of_ports rfl)
  have after := recordsLaw_runProcedure law.store k s.ws.queues
  have records : t.rsc.records = (runProcedure k s.ws.queues s.rsc.records).records := by rw [same.rsc]; rfl
  have map : t.rsc.map = slotMapOf (runProcedure k s.ws.queues s.rsc.records).records := by rw [same.rsc]; rfl
  refine ⟨t, next, ?_, ?_, ports, same.fre, same.pending, ?_, fun slot low =>
    ⟨mapEntryOf t.rsc.records slot, ?_, fun id => mapEntryOf_talker id ?_, fun id => mapEntryOf_listeners id ?_⟩⟩
  · rw [← runProcedure_records_after law.store.unique k, map, same.rsc]; rfl
  · rw [same.ws, List.append_assoc, ← runProcedure_asks k]; rfl
  · rw [map, slotMapOf, List.length_map, List.length_range]; rfl
  · rw [map, records, slotMapOf_get _ low]
  · rw [records]; exact after.talk
  · rw [records]; exact fun r m => runProcedure_stays m

end Sys2Proof.Machine
end

section
/-! O27: the events of the boundary procedure (R45, R48, R50, R54). -/

namespace Sys2Proof.Machine
open Sys2Proof.Safety

/-! ### Listener hosts (R45) -/

theorem listen_of_not_talk {r : ClaimRec} : r.isTalk = false ↔ r.role = .listen := by
  cases role : r.role <;> simp [ClaimRec.isTalk, role]

theorem mem_listenerHosts {rs : List ClaimRec} {slot : Nat} {g : HostId} :
    ⟨slot, g⟩ ∈ listenerHosts rs ↔ ∃ q ∈ rs, q.host = g ∧ q.slot = slot ∧ q.role = .listen ∧ q.forward = true := by
  simp only [listenerHosts, List.mem_map, List.mem_filter, Bool.and_eq_true, Bool.not_eq_true', listen_of_not_talk,
    ListenerHost.mk.injEq]
  exact ⟨fun ⟨q, ⟨m, listen, forward⟩, slot, host⟩ => ⟨q, m, host, slot, listen, forward⟩,
    fun ⟨q, m, host, slot, listen, forward⟩ => ⟨q, ⟨m, listen, forward⟩, slot, host⟩⟩

/-- The TALKER_CHANGED events for a record: of a TALK record, to the slot's listener hosts but the owner. -/
def tellOthers (k : Word) (ls : List ListenerHost) (r : ClaimRec) (talker : Option HostId) : List (HostId × Event) :=
  if r.isTalk then talkerChanged k ls r.slot r.host talker else []

theorem tellOthers_eq (k : Word) (rs : List ClaimRec) (r : ClaimRec) (talker : Option HostId) :
    tellOthers k (listenerHosts rs) r talker =
      if r.role = .listen then []
      else
        ([.h0, .h1, .h2, .h3].filter fun g => rs.any fun q =>
          decide (q.host = g ∧ q.slot = r.slot ∧ q.role = .listen ∧ g ≠ r.host) && q.forward).map
          fun g => (g, ⟨.talkerChanged r.slot talker, k.setWidth 16⟩) := by
  unfold tellOthers
  cases talk : r.isTalk with
  | false => rw [if_pos (listen_of_not_talk.mp talk)]; rfl
  | true =>
    have role : r.role ≠ .listen := fun listen => by simp [listen_of_not_talk.mpr listen] at talk
    rw [if_pos rfl, if_neg role, talkerChanged]
    refine congrArg (List.map _) (List.filter_congr fun g _ => ?_)
    rw [Bool.eq_iff_iff, decide_eq_true_iff, mem_listenerHosts]
    simp only [List.any_eq_true, Bool.and_eq_true, decide_eq_true_eq]
    exact ⟨fun ⟨⟨q, m, host, slot, listen, forward⟩, other⟩ => ⟨q, m, ⟨host, slot, listen, other⟩, forward⟩,
      fun ⟨q, m, ⟨host, slot, listen, other⟩, forward⟩ => ⟨⟨q, m, host, slot, listen, forward⟩, other⟩⟩

/-! ### The events in order -/

/-- The records that step 3 adopts, in the order of the store. -/
theorem filter_isAdopted {qs : List TxQueue} {rs : List ClaimRec} (unique : (rs.map ClaimRec.id).Nodup) :
    (carried qs rs).filter (isAdopted (carried qs rs)) =
      rs.filter fun r => decide (r.state = .pendingAdd) && !standsBehind qs rs r := by
  have adopts (r : ClaimRec) (m : r ∈ rs) (stays : survives qs r = true) := isAdopted_carried unique m stays
  generalize isAdopted (carried qs rs) = adopts' at adopts ⊢
  rw [carried, List.filter_map, List.filter_filter]
  have same : rs.filter (fun r => (adopts' ∘ ClaimRec.countedDown) r && survives qs r) =
      rs.filter fun r => decide (r.state = .pendingAdd) && !standsBehind qs rs r := by
    refine List.filter_congr fun r m => ?_
    rw [Function.comp_apply]
    cases stays : survives qs r with
    | true => rw [adopts r m stays, Bool.and_true]
    | false =>
      have force : r.state ≠ .pendingAdd := fun add => by simp [survives_of_pendingAdd add] at stays
      simp [force]
  rw [same]
  refine (List.map_congr_left fun r m => ?_).trans (List.map_id _)
  have add := of_decide_eq_true (Bool.and_eq_true .. ▸ (List.mem_filter.mp m).2).1
  exact countedDown_of_pendingAdd add

theorem runProcedure_events {k : Word} {qs : List TxQueue} {rs : List ClaimRec} (unique : (rs.map ClaimRec.id).Nodup) :
    (runProcedure k qs rs).events =
      (rs.filter (removedAt qs)).flatMap (endEvents k (listenerHosts rs) .released) ++
        (rs.filter fun r => !removedAt qs r && ranOut r).flatMap (endEvents k (listenerHosts rs) .expired) ++
        (rs.filter fun r => decide (r.state = .pendingAdd) && !standsBehind qs rs r).flatMap
          (adoptEvents k (listenerHosts rs)) := by
  have expired : (rs.filter fun r => !releaseComplete qs r).filter ClaimRec.expires =
      rs.filter fun r => !removedAt qs r && ranOut r := by
    rw [List.filter_filter, releaseComplete_eq, expires_eq]
    exact List.filter_congr fun r _ => Bool.and_comm ..
  rw [← filter_isAdopted unique, ← expired, ← leased_removed, ← releaseComplete_eq, List.append_assoc]
  rfl

/-- Settles O27. -/
theorem boundaryProcedureQueuesItsEvents : Obligations.BoundaryProcedureQueuesItsEvents := by
  intro s t k ks toOthers law quiet idle waiting toOthersEq ran
  have stepped := boundaryStep_some.mpr ⟨quiet, .inr ⟨idle, k, ks, waiting, rfl⟩⟩
  have now := Host.Outcome.next.inj (ran.symm.trans (settle_some stepped))
  have told (r : ClaimRec) (talker : Option HostId) :
      tellOthers k (listenerHosts s.rsc.records) r talker = toOthers r talker :=
    (tellOthers_eq ..).trans (toOthersEq ..).symm
  have evu : t.evu = { s.evu with
      fromRsc := s.evu.fromRsc ++ (runProcedure k s.ws.queues s.rsc.records).events } := by rw [now]; rfl
  simp only [evu, runProcedure_events law.store.unique, ← told, List.append_assoc]
  rfl

end Sys2Proof.Machine
end

section
/-! O28, O29: LEASE_EXPIRY as a part of the boundary procedure (R44, R50; log 4). -/

namespace Sys2Proof.Machine
open Sys2Proof.Safety

/-! ### The first expiry of a lease step -/

/-- The lease step comes to r after the records that go on. -/
theorem expireNext_at {k : Word} {ls : List ListenerHost} {first before after : List ClaimRec} {r : ClaimRec}
    (goOn : ∀ q ∈ before, ranOut q = false) (out : ranOut r = true) (s : State) :
    expireNext k ls first (before ++ r :: after) s =
      some (askWs (expiryAsks r) (eventsFromRsc (endEvents k ls .expired r)
        (s.onRsc fun c =>
          { c with
            records := first ++ before.map ClaimRec.countedDown ++ after
            proc := some ⟨k, ls, first.length + before.length⟩ }))) := by
  have found : leaseUntil (before ++ r :: after) = some (before.map ClaimRec.countedDown, r, after) :=
    leaseUntil_some.mpr ⟨before, rfl, rfl, fun q m => by rw [expires_eq]; exact goOn q m, by rw [expires_eq]; exact out⟩
  simp only [expireNext, found, List.length_map]

theorem tellOthers_none (k : Word) (ls : List ListenerHost) (r : ClaimRec) :
    tellOthers k ls r none =
      if r.role = .listen then []
      else
        ([.h0, .h1, .h2, .h3].filter fun g => ls.any fun l =>
          decide (l.host = g ∧ l.slot = r.slot ∧ g ≠ r.host)).map
          fun g => (g, ⟨.talkerChanged r.slot none, k.setWidth 16⟩) := by
  unfold tellOthers
  cases talk : r.isTalk with
  | false => rw [if_pos (listen_of_not_talk.mp talk)]; rfl
  | true =>
    have role : r.role ≠ .listen := fun listen => by simp [listen_of_not_talk.mpr listen] at talk
    rw [if_pos rfl, if_neg role, talkerChanged]
    refine congrArg (List.map _) (List.filter_congr fun g _ => ?_)
    rw [Bool.eq_iff_iff, decide_eq_true_iff]
    simp only [List.any_eq_true, decide_eq_true_eq]
    exact ⟨fun ⟨m, other⟩ => ⟨_, m, rfl, rfl, other⟩, fun ⟨l, m, host, slot, other⟩ => ⟨host ▸ slot ▸ m, other⟩⟩

theorem expiryAsks_eq (r : ClaimRec) :
    expiryAsks r = if r.role = .talk then [.flush r.id, .ending r.id] else [] := by
  simp only [expiryAsks, ClaimRec.isTalk, decide_eq_true_eq]

theorem listenerHosts_eq (rs : List ClaimRec) :
    listenerHosts rs = (rs.filter fun q => decide (q.role = .listen) && q.forward).map fun q => ⟨q.slot, q.host⟩ := by
  refine congrArg _ (List.filter_congr fun q _ => ?_)
  cases role : q.role <;> simp [ClaimRec.isTalk, role]

theorem removalStep_asks (k : Word) (ls : List ListenerHost) (qs : List TxQueue) (rs : List ClaimRec) :
    (removalStep k ls qs rs).asks = (rs.filter fun r => removedAt qs r && r.isTalk).map fun r => .ending r.id := by
  rw [removalStep, endingsOf, List.filter_filter, releaseComplete_eq]
  exact congrArg _ (List.filter_congr fun r _ => Bool.and_comm ..)

/-- Settles O28: the two ways LEASE_EXPIRY begins come to the same expiry. -/
theorem leaseExpiryDeletesTheRecord : Obligations.LeaseExpiryDeletesTheRecord := by
  intro s before after r counted told quiet goOn out countedEq toldEq
  have count : before.map counted = before.map ClaimRec.countedDown :=
    List.map_congr_left fun q _ => (countedEq q).trans (countedDown_eq q).symm
  have tell (ls : List ListenerHost) (k : Word) (q : ClaimRec) : told ls k q = tellOthers k ls q none :=
    (toldEq ls k q).trans (tellOthers_none k ls q).symm
  rw [count]
  simp only [tell, ← expiryAsks_eq]
  refine ⟨fun p passed proc visited records => ?_, fun k ks ls idle waiting left hosts => ?_⟩
  · have cut : s.rsc.records.take p.visited = passed ∧ s.rsc.records.drop p.visited = before ++ r :: after := by
      rw [records, visited, List.append_assoc]
      exact ⟨List.take_left, List.drop_left⟩
    have stepped := leaseExpiryStep_some.mpr ⟨quiet, .inl ⟨p, proc,
      by rw [cut.1, cut.2]; exact expireNext_at goOn out s⟩⟩
    obtain ⟨t, next, ports, same⟩ := settle_kept (s := s) stepped (portsKept_of_ports rfl)
    refine ⟨t, next, ?_, ?_, ?_, ports, same.fre, same.pending⟩
    · rw [same.rsc]; rfl
    · rw [same.evu]; rfl
    · rw [same.ws]; rfl
  · rw [← listenerHosts_eq] at hosts
    have kept : (removalStep k ls s.ws.queues s.rsc.records).records = before ++ r :: after := by
      rw [← left, removalStep, releaseComplete_eq]
    have stepped := leaseExpiryStep_some.mpr ⟨quiet, .inr ⟨idle, k, ks, waiting,
      by rw [← hosts, kept]; exact expireNext_at (first := []) goOn out _⟩⟩
    obtain ⟨t, next, ports, same⟩ := settle_kept (s := s) stepped (portsKept_of_ports rfl)
    refine ⟨t, next, ?_, ?_, ?_, ports, same.fre, same.pending⟩
    · rw [same.rsc, List.length_nil, Nat.zero_add]; rfl
    · rw [same.evu, ← releaseComplete_eq]; rfl
    · rw [same.ws, ← removalStep_asks k ls]; rfl

/-! ### O29: the procedure is one operation however it is cut -/

/-- Bringing ATN up to date twice, with the same conditions, is bringing it up to date once. -/
theorem refreshAtn_relit {u v w : State} (portsU : u.ports = w.refreshAtn.ports) (portsV : v.ports = w.ports)
    (rsc : u.rsc = v.rsc) (fre : u.fre = v.fre) (ws : u.ws = v.ws) (evu : u.evu = v.evu)
    (pending : u.pending = v.pending) : u.refreshAtn = v.refreshAtn := by
  have port (g : HostId) : u.port g = { v.port g with atn := attentionNow w g } := by
    rw [State.port, portsU, State.port, portsV]
    exact State.refreshAtn_port w g
  refine state_ext (Quad.ext_get fun g => ?_) rsc fre ws evu pending
  have now : attentionNow u g = attentionNow v g := by
    rw [attentionNow, port, State.evq, evu, State.store, ws]
    rfl
  exact (State.refreshAtn_port u g).trans (by rw [port, now]; exact (State.refreshAtn_port v g).symm)

/-- What the procedure still does after the first expiry of its lease step, put behind that expiry, is what it does
from there on. -/
theorem finishProcedure_cut {k : Word} {ls : List ListenerHost} {rs passed after : List ClaimRec} {e : ClaimRec} {n : Nat}
    (rest : rs.drop n = passed ++ e :: after) (runs : ∀ q ∈ passed, q.expires = false) (out : e.expires = true) :
    finishProcedure k ls n rs =
      let b := finishProcedure k ls ((rs.take n).length + passed.length)
        (rs.take n ++ passed.map ClaimRec.countedDown ++ after)
      { b with events := endEvents k ls .expired e ++ b.events, asks := expiryAsks e ++ b.asks } := by
  have goOn : passed.filter ClaimRec.expires = [] := List.filter_eq_nil_iff.mpr fun q m => by simp [runs q m]
  have all : passed.filter (fun q => !q.expires) = passed := List.filter_eq_self.mpr fun q m => by simp [runs q m]
  have stage : leaseStep k ls (rs.drop n) =
      ⟨passed.map ClaimRec.countedDown ++ (leaseStep k ls after).records,
        endEvents k ls .expired e ++ (leaseStep k ls after).events,
        expiryAsks e ++ (leaseStep k ls after).asks⟩ := by
    simp [leaseStep, rest, List.filter_append, goOn, all, out]
  have length : (rs.take n).length + passed.length = (rs.take n ++ passed.map ClaimRec.countedDown).length := by
    rw [List.length_append, List.length_map]
  simp only [finishProcedure, stage, length, List.take_left, List.drop_left]
  simp only [List.append_assoc]

/-- An expiry, then the rest of the procedure, and the procedure from where the expiry found it. -/
theorem boundaryProcedure_after_expiry {k : Word} {ls : List ListenerHost} {rs : List ClaimRec} {n : Nat} {s u : State}
    (quiet : s.rsc.awaiting = none) (e : expireNext k ls (rs.take n) (rs.drop n) s = some u) :
    exec .boundaryProcedure u.refreshAtn =
      .next (enact (finishProcedure k ls n rs) (s.onRsc fun c => { c with proc := none })).refreshAtn := by
  unfold expireNext at e
  split at e
  · rename_i before x after found
    obtain ⟨passed, rest, rfl, runs, out⟩ := leaseUntil_some.mp found
    have cut := Option.some.inj e
    have proc : u.refreshAtn.rsc.proc = some ⟨k, ls, (rs.take n).length + passed.length⟩ := by
      rw [← cut, ← List.length_map (as := passed) ClaimRec.countedDown]; rfl
    have idle : u.refreshAtn.rsc.awaiting = none := by rw [← cut]; exact quiet
    have goesOn := boundaryStep_some.mpr ⟨idle, .inl ⟨_, proc, rfl⟩⟩
    subst cut
    rw [finishProcedure_cut rest runs out]
    refine (settle_some goesOn).trans (congrArg Host.Outcome.next ?_)
    refine refreshAtn_relit rfl rfl ?_ rfl ?_ ?_ rfl
    · simp [enact_eq]
    · exact congrArg (fun asks => { s.ws with asks := asks }) (List.append_assoc ..)
    · exact congrArg (fun es => { s.evu with fromRsc := es }) (List.append_assoc ..)
  · cases e

/-- Settles O29. -/
theorem leaseExpiryIsPartOfTheProcedure : Obligations.LeaseExpiryIsPartOfTheProcedure := by
  intro s t ran
  obtain ⟨u, stepped, rfl⟩ | ⟨-, rfl⟩ := settle_next ran
  · obtain ⟨quiet, ⟨p, proc, e⟩ | ⟨idle, k, ks, waiting, e⟩⟩ := leaseExpiryStep_some.mp stepped
    · rw [boundaryProcedure_after_expiry quiet e]
      exact (settle_some (boundaryStep_some.mpr ⟨quiet, .inl ⟨p, proc, rfl⟩⟩)).symm
    · rw [boundaryProcedure_after_expiry (n := 0)
        (rs := (removalStep k _ s.ws.queues s.rsc.records).records) (by exact quiet) e]
      refine (congrArg Host.Outcome.next (congrArg State.refreshAtn ?_)).trans
        (settle_some (boundaryStep_some.mpr ⟨quiet, .inr ⟨idle, k, ks, waiting, rfl⟩⟩)).symm
      simp only [runProcedure, enact_eq, askWs, eventsFromRsc, State.onRsc, List.append_assoc, idle]
  · rfl

end Sys2Proof.Machine
end

section
/-! O30: a lease through its boundaries (R4, R49, R50). -/

namespace Sys2Proof.Machine
open Sys2Proof.Safety

theorem adoptedIn_id (l : List ClaimRec) (r : ClaimRec) : (adoptedIn l r).id = r.id := (adoptedIn_sameKey l r).id

/-- A boundary makes no identity. -/
theorem runProcedure_ids (k : Word) (qs : List TxQueue) (rs : List ClaimRec) :
    (runProcedure k qs rs).records.map ClaimRec.id = (rs.filter (survives qs)).map ClaimRec.id := by
  rw [runProcedure_records, carried, List.map_map, List.map_map]
  exact List.map_congr_left fun r _ => (adoptedIn_id ..).trans (countedDown_id r)

/-- An ACTIVE record that the boundary leaves is counted down and no more. -/
theorem countedDown_mem {k : Word} {qs : List TxQueue} {rs : List ClaimRec} {r : ClaimRec} (m : r ∈ rs)
    (active : r.state = .active) (runs : ranOut r = false) : r.countedDown ∈ (runProcedure k qs rs).records := by
  have stays : survives qs r = true := by simp [survives, removedAt, leaving, active, runs]
  rw [runProcedure_records]
  refine List.mem_map.mpr ⟨r.countedDown, List.mem_map_of_mem (List.mem_filter.mpr ⟨m, stays⟩), ?_⟩
  rw [adoptedIn, isAdopted, countedDown_state, active]
  rfl

/-- A record whose lease has run out is not in the store after the boundary. -/
theorem ranOut_gone {k : Word} {qs : List TxQueue} {rs : List ClaimRec} {r q : ClaimRec}
    (unique : (rs.map ClaimRec.id).Nodup) (m : r ∈ rs) (out : ranOut r = true)
    (mq : q ∈ (runProcedure k qs rs).records) : q.id ≠ r.id := by
  intro same
  have left : r.id ∈ (rs.filter (survives qs)).map ClaimRec.id := by
    rw [← runProcedure_ids k, ← same]
    exact List.mem_map_of_mem mq
  obtain ⟨x, mx, id⟩ := List.mem_map.mp left
  obtain ⟨mx, stays⟩ := List.mem_filter.mp mx
  rw [List.inj_on_of_nodup_map unique mx m id, survives, out] at stays
  simp at stays

/-- Settles O30, by induction on the boundaries. -/
theorem leaseRunsItsFramesAndEnds : Obligations.LeaseRunsItsFramesAndEnds := by
  intro frame queues store r n next unique m active lease remaining
  have ids (j : Nat) : ((store j).map ClaimRec.id).Nodup := by
    induction j with
    | zero => exact unique
    | succ j ih =>
      rw [next, runProcedure_ids]
      exact ih.sublist (List.filter_sublist.map ClaimRec.id)
  have stands (j : Nat) (le : j ≤ n.toNat) : { r with remaining := some (n - BitVec.ofNat 16 j) } ∈ store j := by
    induction j with
    | zero =>
      rw [BitVec.sub_zero, ← remaining]
      exact m
    | succ j ih =>
      have goesOn : n - BitVec.ofNat 16 j ≠ 0#16 := by
        have bound := n.isLt
        intro out
        bv_omega
      have down := countedDown_mem (k := frame j) (qs := queues j) (ih (by omega)) active (by simp [ranOut, goesOn])
      rw [countedDown_eq] at down
      rw [next]
      simpa [active, lease, BitVec.sub_sub, BitVec.ofNat_add] using down
  refine ⟨fun j le => ⟨_, stands j le, rfl⟩, fun q mq => ?_⟩
  rw [next] at mq
  have gone := ranOut_gone (ids n.toNat) (stands n.toNat (Nat.le_refl _)) (by simp [ranOut, active, lease]) mq
  exact gone

end Sys2Proof.Machine
end

section
/-! O31: FORMAT (R78, R79). -/

namespace Sys2Proof.Machine
open Sys2Proof.Safety

theorem foldl_max_slot (rs : List ClaimRec) (m : Nat) :
    m ≤ rs.foldl (fun m r => max m r.slot) m ∧ (∀ q ∈ rs, q.slot ≤ rs.foldl (fun m r => max m r.slot) m) ∧
      (rs.foldl (fun m r => max m r.slot) m = m ∨ ∃ q ∈ rs, q.slot = rs.foldl (fun m r => max m r.slot) m) := by
  induction rs generalizing m with
  | nil => exact ⟨Nat.le_refl m, nofun, .inl rfl⟩
  | cons r rs ih =>
    obtain ⟨low, all, attained⟩ := ih (max m r.slot)
    rw [List.foldl_cons]
    refine ⟨(Nat.le_max_left ..).trans low, fun q mq => ?_, ?_⟩
    · rcases List.mem_cons.mp mq with rfl | mq
      · exact (Nat.le_max_right ..).trans low
      · exact all q mq
    · rcases attained with same | ⟨q, mq, top⟩
      · rcases Nat.le_total m r.slot with le | le
        · exact .inr ⟨r, List.mem_cons_self, by rw [same, Nat.max_eq_right le]⟩
        · exact .inl (by rw [same, Nat.max_eq_left le])
      · exact .inr ⟨q, List.mem_cons_of_mem _ mq, top⟩

/-- R79: where a record names a slot at or above the new F, the check answers with the highest slot named. -/
theorem slotInUse_of_above {rs : List ClaimRec} {f : Nat} (above : ∃ q ∈ rs, f ≤ q.slot) :
    ∃ q ∈ rs, slotInUse rs f = some q.slot ∧ ∀ q' ∈ rs, q'.slot ≤ q.slot := by
  obtain ⟨p, mp, high⟩ := above
  obtain ⟨-, all, attained⟩ := foldl_max_slot rs 0
  have found : slotInUse rs f = some (rs.foldl (fun m r => max m r.slot) 0) :=
    if_pos (List.any_eq_true.mpr ⟨p, mp, decide_eq_true high⟩)
  rcases attained with zero | ⟨q, mq, top⟩
  · have bottom (q' : ClaimRec) (m : q' ∈ rs) : q'.slot = 0 := Nat.le_zero.mp (zero ▸ all q' m)
    exact ⟨p, mp, by rw [found, zero, bottom p mp], fun q' m => by rw [bottom q' m]; exact Nat.zero_le _⟩
  · exact ⟨q, mq, by rw [found, top], fun q' m => by rw [top]; exact all q' m⟩

/-- What FORMAT does once it is taken. -/
def formatFor (h : HostId) (r : Request) (s v : State) : Option State :=
  if s.fre.engine ≠ .stopped then some (answer h .state [] v)
  else
    match parseFormat r.payload with
    | none => some (answer h .badArgument [] v)
    | some f =>
      if rscFree s then
        match slotInUse s.rsc.records f.slots with
        | some top => some (answer h .inUse [nat8 top] v)
        | none => some (answer h .ok [] (v.onFre fun e => { e with fmt := f }))
      else none

theorem formatStep_taken {s : State} {h : HostId} {r : Request} (asked : Asked s h .format r)
    (may : mayTake s .fre h = true) : formatStep h s = formatFor h r s (markServed .fre h s) := by
  unfold formatStep
  rw [takeFair_some.mpr ⟨asked, may, rfl⟩]
  rfl

/-- Settles O31. -/
theorem formatIsCheckedAndReplacesTheRecord : Obligations.FormatIsCheckedAndReplacesTheRecord := by
  intro s h r asked may free
  have taken := formatStep_taken asked may
  have kept := markServed_portsKept .fre h s
  have refused {res : Result} {p : List Byte}
      (e : formatFor h r s (markServed .fre h s) = some (answer h res p (markServed .fre h s))) :
      ∃ t, exec (.format h) s = .next t ∧ Replied s t h r res p ∧ BlocksKept s t :=
    settle_answer_kept (taken.trans e) kept asked.1 (blocksKept_markServed ..)
  unfold formatFor at taken refused
  by_cases stopped : s.fre.engine = .stopped
  · rw [if_neg (not_not_intro stopped)] at taken refused
    cases read : parseFormat r.payload with
    | none =>
      obtain ⟨t, next, replied, rsc, fre, ws, evu, pending⟩ := refused (by rw [read])
      exact ⟨t, _, _, next, replied, rsc, ws, evu, pending, fun busy => absurd stopped busy,
        fun _ _ => ⟨rfl, rfl, fre⟩, nofun⟩
    | some f =>
      rw [read] at taken refused
      dsimp only at taken refused
      rw [if_pos free] at taken refused
      by_cases above : ∃ q ∈ s.rsc.records, f.slots ≤ q.slot
      · obtain ⟨q, m, found, top⟩ := slotInUse_of_above above
        obtain ⟨t, next, replied, rsc, fre, ws, evu, pending⟩ := refused (by rw [found])
        refine ⟨t, _, _, next, replied, rsc, ws, evu, pending, fun busy => absurd stopped busy, nofun, fun _ g e => ?_⟩
        cases e
        refine ⟨fun below => ?_, fun _ => ⟨rfl, fre, q, m, rfl, top⟩⟩
        obtain ⟨p, mp, high⟩ := above
        exact absurd (below p mp) (Nat.not_lt.mpr high)
      · have below : ∀ q ∈ s.rsc.records, q.slot < f.slots := fun q m =>
          Nat.lt_of_not_le fun high => above ⟨q, m, high⟩
        rw [slotInUse_eq_none.mpr below] at taken
        obtain ⟨t, next, replied, same⟩ := settle_answer (s := s) taken (portsKept_of_markServed rfl) asked.1
        refine ⟨t, _, _, next, replied, same.rsc, same.ws, same.evu, same.pending, fun busy => absurd stopped busy, nofun,
          fun _ g e => ?_⟩
        cases e
        exact ⟨fun _ => ⟨rfl, rfl, same.fre⟩, fun high => absurd high above⟩
  · obtain ⟨t, next, replied, rsc, fre, ws, evu, pending⟩ := refused (if_pos stopped)
    exact ⟨t, _, _, next, replied, rsc, ws, evu, pending, fun _ => ⟨rfl, rfl, fre⟩, fun at_ => absurd at_ stopped,
      fun at_ => absurd at_ stopped⟩

end Sys2Proof.Machine
end

section
/-! O32, O33: RUN, HALT and the FRE's session end (R82, R83). -/

namespace Sys2Proof.Machine
open Sys2Proof.Safety

section
variable {h : HostId} {s : State}

theorem addVote_of_votes (some : noVotes s.fre.votes = false) :
    addVote h s = s.onFre fun f => { f with votes := f.votes.set h true } := by
  simp [addVote, some]

theorem addVote_of_none (none : noVotes s.fre.votes = true) :
    addVote h s = votesRaised (s.onFre fun f => { f with votes := f.votes.set h true }) := by
  simp [addVote, none]

theorem removeVote_of_votes (left : noVotes (s.fre.votes.set h false) = false ∨ noVotes s.fre.votes = true) :
    removeVote h s = s.onFre fun f => { f with votes := f.votes.set h false } := by
  rcases left with left | none
  · simp [removeVote, left]
  · simp [removeVote, none]

theorem removeVote_of_last (emptied : noVotes (s.fre.votes.set h false) = true) (some : noVotes s.fre.votes = false) :
    removeVote h s = votesEmptied (s.onFre fun f => { f with votes := f.votes.set h false }) := by
  simp [removeVote, emptied, some]

theorem votesRaised_votes (s : State) : (votesRaised s).fre.votes = s.fre.votes := by
  unfold votesRaised
  split
  · split <;> rfl
  · rfl
  · rfl
  · rfl

theorem votesEmptied_votes (s : State) : (votesEmptied s).fre.votes = s.fre.votes := by
  unfold votesEmptied
  split
  · rfl
  · rfl
  · rfl
  · split <;> rfl

theorem addVote_votes (h : HostId) (s : State) : (addVote h s).fre.votes = s.fre.votes.set h true := by
  unfold addVote
  dsimp only
  split
  · exact votesRaised_votes _
  · rfl

theorem removeVote_votes (h : HostId) (s : State) : (removeVote h s).fre.votes = s.fre.votes.set h false := by
  unfold removeVote
  dsimp only
  split
  · exact votesEmptied_votes _
  · rfl

/-! What a vote added to an empty set does (R82, R84, R85, R93). -/

section
variable (none : noVotes s.fre.votes = true)
include none

theorem addVote_startsLeader (stopped : s.fre.engine = .stopped) (mode : s.fre.fmt.mode = .leader) :
    (addVote h s).fre = { s.fre with
        votes := s.fre.votes.set h true, engine := .running, leadIn := true, inUse := s.fre.fmt, clkHigh := false,
        hbclk := some false, hfsync := some false } ∧
      (addVote h s).evu = { s.evu with fromFre := s.evu.fromFre ++ engineCopies s .running s.fre.frame } := by
  rw [addVote_of_none none, votesRaised]
  simp only [State.onFre_fre, stopped, mode]
  exact ⟨rfl, rfl⟩

theorem addVote_startsFollower (stopped : s.fre.engine = .stopped) (mode : s.fre.fmt.mode = .follower) :
    (addVote h s).fre = { s.fre with
        votes := s.fre.votes.set h true, engine := .acquiring, leadIn := false, inUse := s.fre.fmt, acq := .none,
        prevSync := .none } ∧
      (addVote h s).evu = s.evu := by
  rw [addVote_of_none none, votesRaised]
  simp only [State.onFre_fre, stopped, mode]
  exact ⟨rfl, rfl⟩

theorem addVote_cancelsStop (stopping : s.fre.engine = .stopping) :
    (addVote h s).fre = { s.fre with votes := s.fre.votes.set h true, engine := .running } ∧
      (addVote h s).evu = { s.evu with fromFre := s.evu.fromFre ++ engineCopies s .running s.fre.frame } := by
  rw [addVote_of_none none, votesRaised]
  simp only [State.onFre_fre, stopping]
  exact ⟨rfl, rfl⟩

end

/-! What the last vote's removal does (R83, R86, R91). -/

section
variable (emptied : noVotes (s.fre.votes.set h false) = true) (some : noVotes s.fre.votes = false)
include emptied some

theorem removeVote_stops (idle : s.fre.engine = .acquiring ∨ s.fre.engine = .running ∧ s.fre.leadIn = true) :
    (removeVote h s).fre = { atRest s.fre with votes := s.fre.votes.set h false } ∧
      (removeVote h s).evu = { s.evu with fromFre := s.evu.fromFre ++ engineCopies s .stopped s.fre.frame } := by
  rw [removeVote_of_last emptied some, votesEmptied]
  rcases idle with acquiring | ⟨running, leadIn⟩
  · simp only [State.onFre_fre, acquiring]
    exact ⟨rfl, rfl⟩
  · simp only [State.onFre_fre, running, leadIn, if_true]
    exact ⟨rfl, rfl⟩

theorem removeVote_stopping (running : s.fre.engine = .running) (leadIn : s.fre.leadIn = false) :
    (removeVote h s).fre = { s.fre with votes := s.fre.votes.set h false, engine := .stopping } ∧
      (removeVote h s).evu = s.evu := by
  rw [removeVote_of_last emptied some, votesEmptied]
  simp only [State.onFre_fre, running, leadIn, Bool.false_eq_true, if_false]
  exact ⟨trivial, rfl⟩

end

end

theorem engineCopies_markServed (o : Owner) (h : HostId) (s : State) (st : EngineState) (k : Word) :
    engineCopies (markServed o h s) st k = engineCopies s st k := engineCopies_congr (markServed_state o h s) st k

theorem runStep_taken {s : State} {h : HostId} {r : Request} (asked : Asked s h .run r) (may : mayTake s .fre h = true) :
    runStep h s = some (answer h .ok (enginePayload (addVote h (markServed .fre h s)))
      (addVote h (markServed .fre h s))) := by
  unfold runStep
  rw [takeFair_some.mpr ⟨asked, may, rfl⟩]
  rfl

theorem haltStep_taken {s : State} {h : HostId} {r : Request} (asked : Asked s h .halt r)
    (may : mayTake s .fre h = true) :
    haltStep h s = some (answer h .ok (enginePayload (removeVote h (markServed .fre h s)))
      (removeVote h (markServed .fre h s))) := by
  unfold haltStep
  rw [takeFair_some.mpr ⟨asked, may, rfl⟩]
  rfl

/-- Settles O32. -/
theorem runAddsTheVote : Obligations.RunAddsTheVote := by
  intro s h r asked may
  obtain ⟨t, next, replied, same⟩ := settle_answer (s := s) (runStep_taken asked may)
    (portsKept_of_markServed (addVote_ports ..)) asked.1
  have votes : t.fre.votes = s.fre.votes.set h true := by rw [same.fre, addVote_votes]; rfl
  have copies (st : EngineState) (k : Word) := engineCopies_markServed .fre h s st k
  refine ⟨t, next, by rw [same.fre]; exact replied, votes, by rw [same.rsc]; simp, by rw [same.ws]; simp,
    by rw [same.pending]; simp, fun some => ?_, fun none stopped mode => ?_, fun none stopped mode => ?_,
    fun none stopping => ?_⟩
  all_goals rw [votes, same.fre, same.evu]
  · rw [addVote_of_votes (s := markServed .fre h s) some]
    exact ⟨rfl, rfl⟩
  · rw [← copies]
    exact addVote_startsLeader (s := markServed .fre h s) none stopped mode
  · exact addVote_startsFollower (s := markServed .fre h s) none stopped mode
  · rw [← copies]
    exact addVote_cancelsStop (s := markServed .fre h s) none stopping

/-- What a state with a vote removed must show (R83), of t after s. -/
def VoteRemoved (h : HostId) (s t : State) : Prop :=
  t.fre.votes = s.fre.votes.set h false ∧ t.rsc = s.rsc ∧ t.ws = s.ws ∧ t.pending = s.pending ∧
    (noVotes t.fre.votes = false ∨ noVotes s.fre.votes = true →
      t.fre = { s.fre with votes := t.fre.votes } ∧ t.evu = s.evu) ∧
    (noVotes t.fre.votes = true → noVotes s.fre.votes = false →
      (s.fre.engine = .acquiring ∨ s.fre.engine = .running ∧ s.fre.leadIn = true →
        t.fre = { atRest s.fre with votes := t.fre.votes } ∧
        t.evu = { s.evu with fromFre := s.evu.fromFre ++ engineCopies s .stopped s.fre.frame }) ∧
      (s.fre.engine = .running → s.fre.leadIn = false →
        t.fre = { s.fre with votes := t.fre.votes, engine := .stopping } ∧ t.evu = s.evu))

theorem voteRemoved_removeVote (h : HostId) {s t : State} (same : SameBlocks (removeVote h s) t) : VoteRemoved h s t := by
  have votes : t.fre.votes = s.fre.votes.set h false := by rw [same.fre, removeVote_votes]
  refine ⟨votes, by rw [same.rsc]; simp, by rw [same.ws]; simp, by rw [same.pending]; simp, fun left => ?_,
    fun emptied some => ⟨fun idle => ?_, fun running leadIn => ?_⟩⟩
  all_goals rw [votes, same.fre, same.evu]
  · rw [removeVote_of_votes (votes ▸ left)]
    exact ⟨rfl, rfl⟩
  · exact removeVote_stops (votes ▸ emptied) some idle
  · exact removeVote_stopping (votes ▸ emptied) some running leadIn

/-- Marking the requests that have seen one served changes no part that the removal speaks of. -/
theorem VoteRemoved.of_markServed {o : Owner} {h : HostId} {s t : State} (removed : VoteRemoved h (markServed o h s) t) :
    VoteRemoved h s t := by
  simpa only [VoteRemoved, engineCopies_markServed, markServed_fre, markServed_rsc, markServed_ws, markServed_evu,
    markServed_pending] using removed

/-- Settles O33: HALT and the session end both remove the vote. -/
theorem haltAndSessionEndRemoveTheVote : Obligations.HaltAndSessionEndRemoveTheVote := by
  intro s h c r which
  obtain ⟨rfl, asked, may⟩ | ⟨rfl, due⟩ := which
  · obtain ⟨t, next, replied, same⟩ := settle_answer (s := s) (haltStep_taken asked may)
      (portsKept_of_markServed (removeVote_ports ..)) asked.1
    exact ⟨t, next, fun _ => by rw [same.fre]; exact replied, nofun, (voteRemoved_removeVote h same).of_markServed⟩
  · obtain ⟨t, next, reported, same⟩ := settle_report (s := s) (if_pos due) (removeVote_ports ..)
    exact ⟨t, next, nofun, fun _ => reported, voteRemoved_removeVote h same⟩

end Sys2Proof.Machine
end

section
/-! O45: where slots and words stand (R66 to R68). -/

namespace Sys2Proof.Machine
open Sys2Proof.Safety

theorem slotAt_eq (f : Format) (p : Nat) :
    slotAt f p = if p < f.slots * f.width then some (p / f.width, p % f.width) else none := rfl

theorem isSlotStart_iff {f : Format} {p : Nat} :
    isSlotStart f p = true ↔ p < f.slots * f.width ∧ p % f.width = 0 := by
  unfold isSlotStart slotAt
  by_cases low : p < f.slots * f.width <;> simp [low]

theorem isSlotEnd_iff {f : Format} {p : Nat} :
    isSlotEnd f p = true ↔ p < f.slots * f.width ∧ p % f.width + 1 = f.width := by
  unfold isSlotEnd slotAt
  by_cases low : p < f.slots * f.width <;> simp [low]

/-- A position is the start of slot x exactly at x times W. -/
theorem slotStart_iff {f : Format} {p x : Nat} (width : 0 < f.width) :
    isSlotStart f p = true ∧ p / f.width = x ↔ x < f.slots ∧ p = x * f.width := by
  rw [isSlotStart_iff]
  constructor
  · rintro ⟨⟨low, start⟩, rfl⟩
    have whole : p / f.width * f.width = p := Nat.div_mul_cancel (Nat.dvd_of_mod_eq_zero start)
    exact ⟨Nat.div_lt_of_lt_mul (Nat.mul_comm .. ▸ low), whole.symm⟩
  · rintro ⟨low, rfl⟩
    exact ⟨⟨Nat.mul_lt_mul_of_pos_right low width, Nat.mul_mod_left ..⟩, Nat.mul_div_cancel _ width⟩

theorem nextSlotStart_iff {s : State} {x : Nat} (width : 0 < s.fre.inUse.width) (past : s.fre.slot0Due = false) :
    nextSlotStart s = some x ↔
      risingNext s = true ∧ 0 < x ∧ x < s.fre.inUse.slots ∧ s.fre.bitPos + 1 = x * s.fre.inUse.width := by
  have start := slotStart_iff (f := s.fre.inUse) (p := s.fre.bitPos + 1) (x := x) width
  unfold nextSlotStart
  rw [if_neg (by simp [past])]
  constructor
  · intro next
    split at next
    · rename_i holds
      obtain ⟨rising, isStart, -⟩ := holds
      obtain ⟨low, at_⟩ := start.mp ⟨isStart, Option.some.inj next⟩
      refine ⟨rising, Nat.pos_of_ne_zero fun zero => ?_, low, at_⟩
      rw [zero, Nat.zero_mul] at at_
      cases at_
    · cases next
  · rintro ⟨rising, -, low, at_⟩
    obtain ⟨isStart, slot⟩ := start.mpr ⟨low, at_⟩
    have inside := (isSlotStart_iff.mp isStart).1
    rw [if_pos ⟨rising, isStart, Nat.lt_of_lt_of_le inside (Nat.le_add_right ..)⟩, slot]

/-- A sample becomes the lowest bit, the others moving up (R68). -/
theorem shiftIn_getLsbD (rx : Option Word) (b : Bool) {i : Nat} (low : i < 32) :
    (shiftIn rx b).getLsbD i = if i = 0 then b else (rx.getD 0#32).getLsbD (i - 1) := by
  have bit : (if b then 1#32 else 0#32).getLsbD i = (b && decide (i = 0)) := by
    cases b
    · simp only [Bool.false_eq_true, if_false, BitVec.getLsbD_zero, Bool.false_and]
    · simp only [if_true, BitVec.getLsbD_one, Bool.true_and]
      simp
  rw [shiftIn, BitVec.getLsbD_or, BitVec.getLsbD_shiftLeft, bit]
  rcases Nat.eq_zero_or_pos i with rfl | pos
  · simp
  · have above : ¬i < 1 := by omega
    have nonzero : i ≠ 0 := by omega
    simp only [low, above, nonzero, decide_true, decide_false, Bool.not_false, Bool.and_false, Bool.or_false,
      Bool.true_and, if_false]

/-- The word of the samples taken so far, zero before the first. -/
theorem shiftedIn_getLsbD (bits : List Bool) {i : Nat} (low : i < 32) :
    ((bits.foldl (fun rx b => some (shiftIn rx b)) none).getD 0#32).getLsbD i =
      (decide (i < bits.length) && bits.getD (bits.length - 1 - i) false) := by
  induction bits using List.reverseRecOn generalizing i with
  | nil => simp only [List.foldl_nil, Option.getD_none, BitVec.getLsbD_zero, List.length_nil]; simp
  | append_singleton bits b ih =>
    rw [List.foldl_append, List.foldl_cons, List.foldl_nil, Option.getD_some, shiftIn_getLsbD _ _ low,
      List.length_append, List.length_singleton]
    rcases Nat.eq_zero_or_pos i with rfl | pos
    · simp
    · rw [if_neg (by omega), ih (by omega)]
      by_cases inside : i - 1 < bits.length
      · have place : bits.length + 1 - 1 - i = bits.length - 1 - (i - 1) := by omega
        rw [place, List.getD_append _ _ _ _ (by omega)]
        congr 1
        exact decide_eq_decide.mpr (by omega)
      · have outside : ¬i < bits.length + 1 := by omega
        simp [inside, outside]

theorem cut_getLsbD (width : Nat) (x : Word) {i : Nat} (low : i < 32) :
    (cut width x).getLsbD i = (decide (i < width) && x.getLsbD i) := by
  rw [cut, BitVec.getLsbD_and, BitVec.getLsbD_ofNat, Nat.testBit_two_pow_sub_one, Bool.and_comm]
  simp only [low, decide_true, Bool.true_and]

/-- Settles O45. -/
theorem slotsAndWordsStandAtTheirBits : Obligations.SlotsAndWordsStandAtTheirBits := by
  refine ⟨fun s x width past => nextSlotStart_iff width past, fun bits _ some => ?_,
    fun width x i _ low => cut_getLsbD width x low⟩
  have word (i : Nat) (low : i < 32) := shiftedIn_getLsbD bits low
  obtain ⟨init, b, rfl⟩ : ∃ init b, bits = init ++ [b] :=
    ⟨bits.dropLast, bits.getLast some, (List.dropLast_append_getLast some).symm⟩
  rw [List.foldl_append] at word ⊢
  exact ⟨_, rfl, word⟩

end Sys2Proof.Machine
end

section
/-! O36, O37: boundaries and expected instants (R84, R87, R88, R92). -/

namespace Sys2Proof.Machine
open Sys2Proof.Safety

/-- Settles O36. -/
theorem leaderBoundaryAdvancesTheFrame : Obligations.LeaderBoundaryAdvancesTheFrame := by
  intro s c which
  obtain ⟨rfl, running, leadIn⟩ | ⟨rfl, engine, rising, quiet, mode, last⟩ := which
  · obtain ⟨t, next, ports, same⟩ := settle_kept (s := s) (o := leadInEndStep s) (if_pos ⟨running, leadIn⟩)
      (portsKept_of_ports rfl)
    refine ⟨t, next, ports, same.rsc, same.ws, same.pending, fun _ => ⟨same.fre, same.evu⟩, fun stopping => ?_⟩
    rw [running] at stopping
    cases stopping
  · have taken : frameBoundaryStep s = _ := if_pos ⟨rising, quiet, mode, last⟩
    rcases engine with ⟨running, leadIn⟩ | stopping
    · have notStopping : s.fre.engine ≠ .stopping := by rw [running]; nofun
      rw [if_neg notStopping] at taken
      obtain ⟨t, next, ports, same⟩ := settle_kept (s := s) taken (portsKept_of_ports rfl)
      refine ⟨t, next, ports, same.rsc, same.ws, same.pending, fun _ => ⟨?_, same.evu⟩,
        fun stopping => absurd stopping notStopping⟩
      rw [same.fre, ← leadIn]
      rfl
    · rw [if_pos stopping] at taken
      obtain ⟨t, next, ports, same⟩ := settle_kept (s := s) taken (portsKept_of_ports rfl)
      refine ⟨t, next, ports, same.rsc, same.ws, same.pending, fun running => ?_, fun _ => ⟨same.fre, same.evu⟩⟩
      rw [stopping] at running
      cases running

/-- Settles O37. -/
theorem expectedInstantAsksForConfirmation : Obligations.ExpectedInstantAsksForConfirmation := by
  intro s rising quiet mode last
  obtain ⟨t, next, ports, same⟩ := settle_kept (s := s) (o := expectedInstantStep s)
    (if_pos ⟨rising, quiet, mode, last⟩) (portsKept_of_ports rfl)
  refine ⟨t, next, ports, same.rsc, same.ws, same.evu, same.pending, fun running => ?_, fun stopping => ?_⟩
  · rw [same.fre]
    exact if_pos running
  · rw [same.fre]
    exact if_neg (fun running : s.fre.engine = .running => by rw [stopping] at running; cases running)

end Sys2Proof.Machine
end

section
/-! O41, O44: bit clocks and acquisition (R66, R68, R72, R75, R76, R85, R86). -/

namespace Sys2Proof.Machine
open Sys2Proof.Safety

theorem recognised_iff {f : Fre} {sample : Bool} :
    recognised f sample = true ↔ f.inUse.mode = .follower ∧ f.prevSync = some false ∧ sample = true := by
  simp [recognised, and_assoc]

/-- The count after a falling edge (R85). -/
theorem countUp_some (n c : Nat) : countUp n (some c) = some (if c < n then c + 1 else n + 1) := by
  unfold countUp
  rw [Option.map_some]
  congr 1
  split <;> omega

theorem countUp_eq_bits {n : Nat} {acq : Option Nat} : countUp n acq = some n ↔ ∃ c, acq = some c ∧ c + 1 = n := by
  cases acq with
  | none => simp [countUp]
  | some c =>
    rw [countUp_some]
    simp only [Option.some.injEq, exists_eq_left']
    split <;> omega

/-- Settles O41. -/
theorem acquisitionCountsAndLocks : Obligations.AcquisitionCountsAndLocks := by
  intro s n sample rxd bits mode acquiring
  have isBits : s.fre.inUse.bits = n := bits.symm
  have heard (before : s.fre.prevSync = some false) : recognised s.fre true = true :=
    recognised_iff.mpr ⟨mode, before, rfl⟩
  refine ⟨fun unheard => ?_, fun before off => ?_, fun before comes => ?_⟩
  · have silent : recognised s.fre sample = false := Bool.eq_false_iff.mpr fun r => unheard (recognised_iff.mp r).2
    have taken : bitClockStep .falling sample rxd s = some (s.onFre fun f =>
        { f with clkHigh := false, acq := countUp f.inUse.bits f.acq, prevSync := some sample }) := by
      simp only [bitClockStep, acquiring, silent, Bool.false_eq_true, if_false]
    obtain ⟨t, next, ports, same⟩ := settle_kept (s := s) taken (portsKept_of_ports rfl)
    have acq : t.fre.acq = countUp s.fre.inUse.bits s.fre.acq := by rw [same.fre]; rfl
    refine ⟨t, next, ports, same.rsc, same.ws, same.evu, same.pending, by rw [acq, same.fre]; rfl, fun none => ?_,
      fun c some => ?_⟩
    · rw [acq, none]; rfl
    · rw [acq, some, isBits, countUp_some]
  · have notLock : ¬countUp s.fre.inUse.bits s.fre.acq = some s.fre.inUse.bits := fun lock =>
      let ⟨c, counted, at_⟩ := countUp_eq_bits.mp lock
      off c counted (at_.trans isBits)
    have taken : frameSyncStep rxd s =
        some (s.onFre fun f => { f with acq := some 0, clkHigh := false, prevSync := some true }) := by
      simp only [frameSyncStep, heard before, acquiring, notLock, if_true, if_false]
    obtain ⟨t, next, ports, same⟩ := settle_kept (s := s) taken (portsKept_of_ports rfl)
    exact ⟨t, next, ports, same.rsc, same.ws, same.evu, same.pending, same.fre⟩
  · have lock : countUp s.fre.inUse.bits s.fre.acq = some s.fre.inUse.bits :=
      countUp_eq_bits.mpr (by rw [isBits]; exact comes)
    have taken : frameSyncStep rxd s = some (lockStep rxd s) := by
      simp only [frameSyncStep, heard before, acquiring, lock, if_true]
    obtain ⟨t, next, ports, same⟩ := settle_kept (s := s) taken (portsKept_of_ports rfl)
    refine ⟨t, next, ports, ?_, same.rsc, same.ws, same.evu, same.pending⟩
    rw [same.fre]
    cases rxd <;> rfl

/-! ### O44 -/

theorem isSlotStart_eq_false {f : Format} {p : Nat}
    (inside : p < f.slots * f.width → p % f.width ≠ 0) : isSlotStart f p = false :=
  Bool.eq_false_iff.mpr fun start => let ⟨low, zero⟩ := isSlotStart_iff.mp start; inside low zero

/-- The last bit of a slot is the one before a multiple of W. -/
theorem isSlotEnd_eq_false {f : Format} {p : Nat}
    (inside : p < f.slots * f.width → (p + 1) % f.width ≠ 0) : isSlotEnd f p = false := by
  refine Bool.eq_false_iff.mpr fun isEnd => ?_
  obtain ⟨low, last⟩ := isSlotEnd_iff.mp isEnd
  refine inside low ?_
  have split := Nat.div_add_mod p f.width
  have whole : p + 1 = f.width * (p / f.width + 1) := by rw [Nat.mul_add, Nat.mul_one]; omega
  rw [whole, Nat.mul_mod_right]

/-- Past bit position 0 HFSYNC is high within slot 0 in the WORD style only (R70). -/
theorem syncOut_past (f : Fre) (p : Nat) :
    syncOut f (p + 1) = if f.inUse.mode = .leader
      then some (decide (f.inUse.sync = .word ∧ p + 1 < f.inUse.width)) else none := by
  unfold syncOut
  cases style : f.inUse.sync <;> simp

section
variable {s : State} {hfsync rxd : Bool} (framing : inFrame s = true)
include framing

/-- In a frame the engine is RUNNING or STOPPING. -/
theorem engine_of_inFrame : s.fre.engine = .running ∨ s.fre.engine = .stopping := by
  cases engine : s.fre.engine <;> simp [inFrame, EngineState.isRunning, engine] at framing ⊢

theorem bitClockStep_rising (rising : risingNext s = true) (inside : s.fre.bitPos + 1 < s.fre.inUse.bits)
    (noStart : isSlotStart s.fre.inUse (s.fre.bitPos + 1) = false) :
    bitClockStep .rising hfsync rxd s = some (s.onFre Fre.riseInFrame) := by
  rcases engine_of_inFrame framing with engine | engine <;>
    simp only [bitClockStep, engine, rising, inside, noStart, and_self, if_true]

theorem bitClockStep_falling (falling : fallingNext s = true)
    (noEnd : isSlotEnd s.fre.inUse s.fre.bitPos = false) (unheard : recognised s.fre hfsync = false) :
    bitClockStep .falling hfsync rxd s = some (s.onFre (Fre.fallInFrame hfsync rxd)) := by
  rcases engine_of_inFrame framing with engine | engine <;>
    simp only [bitClockStep, engine, falling, noEnd, unheard, and_self, if_true]

end

theorem riseInFrame_slot {f : Fre} (inside : f.bitPos + 1 < f.inUse.slots * f.inUse.width) :
    f.riseInFrame = { f with
      bitPos := f.bitPos + 1, clkHigh := true, hbclk := clockOut f true, hfsync := syncOut f (f.bitPos + 1),
      htxd := f.txWord.map (lineBit f.inUse.width ((f.bitPos + 1) % f.inUse.width)) } := by
  simp only [Fre.riseInFrame, slotAt_eq, inside, if_true]

theorem riseInFrame_gap {f : Fre} (gap : f.inUse.slots * f.inUse.width ≤ f.bitPos + 1) :
    f.riseInFrame = { f with
      bitPos := f.bitPos + 1, clkHigh := true, hbclk := clockOut f true, hfsync := syncOut f (f.bitPos + 1),
      txWord := none, htxd := none, htxen := false } := by
  simp only [Fre.riseInFrame, slotAt_eq, Nat.not_lt.mpr gap, if_false, Fre.releaseTx]

theorem fallInFrame_eq (hfsync rxd : Bool) (f : Fre) :
    Fre.fallInFrame hfsync rxd f = { f with
      clkHigh := false, hbclk := clockOut f false, prevSync := sampled f hfsync,
      rxWord := if f.bitPos < f.inUse.slots * f.inUse.width then some (shiftIn f.rxWord rxd) else f.rxWord } := by
  unfold Fre.fallInFrame
  by_cases inside : f.bitPos < f.inUse.slots * f.inUse.width <;> simp only [slotAt_eq, inside, if_true, if_false]

/-- Settles O44. -/
theorem bitClockMovesOneBit : Obligations.BitClockMovesOneBit := by
  intro s hfsync rxd w g f n clock pulse clockEq pulseEq rfl rfl rfl _ rfl framing past quiet
  have clk (level : Bool) : clock level = clockOut s.fre level := clockEq level
  have sync : pulse = syncOut s.fre (s.fre.bitPos + 1) := pulseEq.trans (syncOut_past s.fre s.fre.bitPos).symm
  refine ⟨fun low inside noStart => ?_, fun high noEnd unheard => ?_⟩
  · have rising : risingNext s = true := by simp [risingNext, framing, low, past, quiet]
    obtain ⟨t, next, ports, same⟩ := settle_kept (s := s)
      (bitClockStep_rising (hfsync := hfsync) (rxd := rxd) framing rising inside (isSlotStart_eq_false noStart))
      (portsKept_of_ports rfl)
    refine ⟨t, next, ports, same.rsc, same.ws, same.evu, same.pending, fun slot => ?_, fun gap => ?_⟩
    · rw [same.fre, State.onFre_fre, riseInFrame_slot slot, clk, sync]; rfl
    · rw [same.fre, State.onFre_fre, riseInFrame_gap gap, clk, sync]
  · have falling : fallingNext s = true := by simp [fallingNext, framing, high, past, quiet]
    have silent : recognised s.fre hfsync = false := Bool.eq_false_iff.mpr fun r => unheard (recognised_iff.mp r)
    obtain ⟨t, next, ports, same⟩ := settle_kept (s := s)
      (bitClockStep_falling (rxd := rxd) framing falling (isSlotEnd_eq_false noEnd) silent)
      (portsKept_of_ports rfl)
    refine ⟨t, next, ports, same.rsc, same.ws, same.evu, same.pending, ?_⟩
    rw [same.fre, State.onFre_fre, fallInFrame_eq, clk]
    rfl

end Sys2Proof.Machine
end

section
/-! O43: the end of a slot (R133, R134, R137). -/

namespace Sys2Proof.Machine
open Sys2Proof.Safety

theorem excluded_eq_false {s : State} {r : ClaimRec} :
    excluded s r = false ↔ r.state ≠ .pendingRelease .discard ∧ (s.port r.host).state ≠ .detaching := by
  simp [excluded]

/-- A record reached from a listener of the map's entry of a slot. -/
theorem mem_offeredHosts {s : State} {slot : Nat} {g : HostId} :
    g ∈ offeredHosts s slot ↔
      ∃ e, s.rsc.map[slot]? = some e ∧ ∃ id ∈ e.listeners, ∃ r, recordOf s.rsc.records id = some r ∧
        r.host = g ∧ r.state ≠ .pendingRelease .discard ∧ (s.port g).state ≠ .detaching := by
  have reached : g ∈ offeredHosts s slot ↔ ∃ id ∈ (s.rsc.map.getD slot MapEntry.empty).listeners,
      ∃ r, recordOf s.rsc.records id = some r ∧ r.host = g ∧ r.state ≠ .pendingRelease .discard ∧
        (s.port g).state ≠ .detaching := by
    simp only [offeredHosts, List.mem_map, List.mem_filter, List.mem_filterMap, Bool.not_eq_true', excluded_eq_false]
    constructor
    · rintro ⟨r, ⟨⟨id, m, found⟩, state, port⟩, rfl⟩
      exact ⟨id, m, r, found, rfl, state, port⟩
    · rintro ⟨id, m, r, found, rfl, state, port⟩
      exact ⟨r, ⟨⟨id, m, found⟩, state, port⟩, rfl⟩
  rw [reached, List.getD_eq_getElem?_getD]
  cases s.rsc.map[slot]? with
  | none => simp [MapEntry.empty]
  | some e => simp

theorem offerAll_ws (os : List Offer) (s : State) :
    (offerAll os s).ws = { s.ws with fromFre := s.ws.fromFre ++ if os = [] then [] else [.offers os] } := by
  cases os with
  | nil => simp [offerAll]
  | cons o os => rfl

/-- The last bit of slot x. -/
theorem slotEnd_at {f : Format} {p x : Nat} (width : 0 < f.width) (low : x < f.slots) (last : p + 1 = (x + 1) * f.width) :
    p / f.width = x ∧ isSlotEnd f p = true := by
  have place : p = f.width - 1 + f.width * x := by
    rw [Nat.add_mul, Nat.one_mul, Nat.mul_comm] at last
    omega
  have end_ : (x + 1) * f.width ≤ f.slots * f.width := Nat.mul_le_mul_right _ low
  have slot : p / f.width = x := by
    rw [place, Nat.add_mul_div_left _ _ width, Nat.div_eq_of_lt (by omega), Nat.zero_add]
  have bit : p % f.width = f.width - 1 := by
    rw [place, Nat.add_mul_mod_self_left, Nat.mod_eq_of_lt (by omega)]
  exact ⟨slot, isSlotEnd_iff.mpr ⟨by omega, by rw [bit]; omega⟩⟩

/-- Settles O43. -/
theorem slotEndOffersTheWordToItsListeners : Obligations.SlotEndOffersTheWordToItsListeners := by
  intro s hfsync rxd x sample falling quiet unheard width low last rfl
  obtain ⟨slot, isEnd⟩ := slotEnd_at width low last
  have taken : slotEndStep hfsync rxd s = _ := if_pos ⟨falling, quiet, isEnd, unheard⟩
  rw [slot] at taken
  dsimp only at taken
  obtain ⟨t, next, ports, same⟩ := settle_kept (s := s) taken (portsKept_of_ports (offerAll_frame ..).1)
  obtain ⟨-, rsc, fre, evu, pending⟩ :=
    offerAll_frame (offersOf s x (slotWord s.fre (shiftIn s.fre.rxWord rxd))) s
  refine ⟨t, offersOf s x (slotWord s.fre (shiftIn s.fre.rxWord rxd)), next, ports, same.rsc.trans rsc,
    same.evu.trans evu, same.pending.trans pending, same.ws.trans (offerAll_ws ..), ?_, fun o m => ?_, fun g => ?_⟩
  · rw [same.fre, State.onFre_fre, fre]
    rfl
  · obtain ⟨h, -, rfl⟩ := List.mem_map.mp m
    refine ⟨rfl, rfl, fun w sent => ?_, fun w sent => ?_, fun none => ?_⟩
    · simp only [slotWord, sent]
      exact ⟨rfl, trivial, trivial⟩
    · simp only [slotWord, sent]
      exact ⟨rfl, trivial, trivial⟩
    · rcases none with none | none <;> simp only [slotWord, none] <;> exact ⟨rfl, trivial, trivial⟩
  · rw [← mem_offeredHosts]
    constructor
    · rintro ⟨o, m, rfl⟩
      obtain ⟨h, mh, rfl⟩ := List.mem_map.mp m
      exact mh
    · exact fun mh => ⟨_, List.mem_map_of_mem mh, rfl⟩

end Sys2Proof.Machine
end

section
/-! SUPPORT. A slot start's decision: what it loads, drives and writes (R123 to R126). -/

namespace Sys2Proof.Machine
open Sys2Proof.Safety

/-! ### Loading the head entry (R104, R124) -/

/-- From s to t the head entry of the queue of a record of host h has been loaded and its cell returned. -/
structure Loaded (s t : State) (id : Nat) (h : HostId) (es : List TxEntry) : Prop where
  entries : entriesOf t.ws.queues id h = es
  others  : ∀ id' g, ¬(id' = id ∧ g = h) → entriesOf t.ws.queues id' g = entriesOf s.ws.queues id' g
  stores  : ∀ g, g ≠ h → t.store g = s.store g
  store   : t.store h = { s.store h with held := (s.store h).held - 1 }
  free    : t.ws.free = s.ws.free + 1

theorem Loaded.of_ws {s t u : State} {id : Nat} {h : HostId} {es : List TxEntry} (loaded : Loaded s t id h es)
    (ws : u.ws = t.ws) : Loaded s u id h es := by
  have store : u.store = t.store := by
    funext g
    rw [State.store, ws, State.store]
  obtain ⟨entries, others, stores, own, free⟩ := loaded
  exact ⟨by rwa [ws], by rwa [ws], by rwa [store], by rwa [store], by rwa [ws]⟩

theorem loadHead_loaded {s : State} {id : Nat} {h : HostId} {x : TxEntry} {es : List TxEntry}
    (entries : entriesOf s.ws.queues id h = x :: es) : Loaded s (loadHead id h s) id h es := by
  obtain ⟨a, q, b, queues, own, owner, -, -⟩ := entriesOf_cons entries
  have stands : ∃ q ∈ s.ws.queues, q.id = id ∧ q.owner = h :=
    ⟨q, by rw [queues]; exact List.mem_append_right _ List.mem_cons_self, own, owner⟩
  rw [loadHead_eq entries]
  refine ⟨?_, fun id' g other => ?_, fun g other => ?_, ?_, rfl⟩
  · exact (entriesOf_changeFirst_self List.tail stands).trans (by rw [entries, List.tail_cons])
  · exact entriesOf_changeFirst_ne (fun _ => ⟨rfl, rfl⟩) other
  · exact Quad.get_set_ne _ _ other
  · exact Quad.get_set_self ..

theorem putSlot_ws_of_none {s : State} {p : SlotPlan} (none : p.load = none) : (putSlot p s).ws = s.ws := by
  simp only [putSlot, none]
  rfl

theorem putSlot_loaded {s : State} {p : SlotPlan} {id : Nat} {h : HostId} {x : TxEntry} {es : List TxEntry}
    (load : p.load = some (id, h)) (entries : entriesOf s.ws.queues id h = x :: es) :
    Loaded s (putSlot p s) id h es :=
  (loadHead_loaded entries).of_ws (by simp only [putSlot, load]; rfl)

theorem putSlot_asks (p : SlotPlan) (s : State) : (putSlot p s).ws.asks = s.ws.asks := by
  obtain ⟨same, -⟩ | ⟨id, h, -, same⟩ := putSlot_ws p s
  · rw [same]
  · rw [same, loadHead_asks]

theorem putSlot_fromFre (p : SlotPlan) (s : State) : (putSlot p s).ws.fromFre = s.ws.fromFre := by
  obtain ⟨same, -⟩ | ⟨id, h, -, same⟩ := putSlot_ws p s
  · rw [same]
  · rw [same, loadHead_fromFre]

/-! ### The lines (R74, R75) -/

/-- The transmit lines and the account of a state are those of a slot's decision. -/
structure Carries (t : State) (p : SlotPlan) : Prop where
  word    : t.fre.txWord = p.line
  line    : t.fre.htxd = p.line.map (lineBit t.fre.inUse.width 0)
  enabled : t.fre.htxen = p.line.isSome
  account : t.fre.account = some p.account

theorem Carries.undriven {t : State} {p : SlotPlan} (carries : Carries t p) (none : p.line = none) : Undriven t :=
  ⟨carries.word.trans none, by rw [carries.enabled, none]; rfl, by rw [carries.line, none]; rfl⟩

theorem Carries.driven {t : State} {p : SlotPlan} {w : Word} (carries : Carries t p) (some : p.line = some w) :
    Driven t w :=
  ⟨carries.word.trans some, by rw [carries.enabled, some]; rfl, by rw [carries.line, some]; rfl⟩

/-! ### The decision (R10, R123, R125) -/

theorem recordOf_id {rs : List ClaimRec} {id : Nat} {r : ClaimRec} (found : recordOf rs id = some r) : r.id = id :=
  of_decide_eq_true (List.find?_some (p := fun r : ClaimRec => decide (r.id = id)) found)

theorem getD_of_getElem? {map : List MapEntry} {x : Nat} {e : MapEntry} (at_ : map[x]? = some e) :
    map.getD x MapEntry.empty = e := by rw [List.getD_eq_getElem?_getD, at_]; rfl

section
variable {s : State} {map : List MapEntry} {rs : List ClaimRec} {x : Nat} {e : MapEntry} (at_ : map[x]? = some e)
include at_

/-- A slot with no talker, or a silenced one, is left undriven with nothing loaded and nothing counted. -/
theorem planSlot_silent
    (silent : e.talker = none ∨ ∃ id r, e.talker = some id ∧ recordOf rs id = some r ∧
      (r.state = .pendingRelease .discard ∨ (s.port r.host).state = .detaching)) :
    planSlot s map rs x = .undriven := by
  unfold planSlot
  rw [getD_of_getElem? at_]
  obtain none | ⟨id, r, talker, found, silenced⟩ := silent
  · rw [none]; rfl
  · have out : excluded s r = true := by simpa [excluded] using silenced
    rw [talker, Option.bind_some, found]
    cases body : r.body <;> simp only [body, out, if_true]

/-- The slot of a talker that is not silenced is decided by its queue and its fill policy. -/
theorem planSlot_talker {id : Nat} {r : ClaimRec} {p : TalkPart} (talker : e.talker = some id)
    (found : recordOf rs id = some r) (body : r.body = .talk p) (state : r.state ≠ .pendingRelease .discard)
    (port : (s.port r.host).state ≠ .detaching) :
    planSlot s map rs x = talkerPlan s.fre.inUse.idle (entriesOf s.ws.queues id r.host) r p := by
  have own := recordOf_id found
  have heard : excluded s r = false := excluded_eq_false.mpr ⟨state, port⟩
  unfold planSlot
  rw [getD_of_getElem? at_, talker, Option.bind_some, found]
  simp only [body, heard, own, Bool.false_eq_true, if_false]

end

/-! What an empty queue sends (R77, R125). -/

section
variable {idle : Word} {r : ClaimRec} {p : TalkPart}

theorem talkerPlan_silent (fill : p.fill = .silent) :
    talkerPlan idle [] r p = ⟨none, .notSent, none, some (.underrun r.id)⟩ := by
  simp only [talkerPlan, fillWord, fill]

theorem talkerPlan_pattern (fill : p.fill = .pattern) :
    talkerPlan idle [] r p = ⟨some idle, .sentFill idle, none, some (.underrun r.id)⟩ := by
  simp only [talkerPlan, fillWord, fill]

theorem talkerPlan_repeatLast (fill : p.fill = .repeatLast) :
    talkerPlan idle [] r p =
      ⟨some (p.lastWord.getD idle), .sentFill (p.lastWord.getD idle), none, some (.underrun r.id)⟩ := by
  simp only [talkerPlan, fillWord, fill]

theorem talkerPlan_empty : (talkerPlan idle [] r p).load = none ∧
    (talkerPlan idle [] r p).traffic = some (.underrun r.id) := by
  cases fill : p.fill
  · rw [talkerPlan_repeatLast fill]; exact ⟨rfl, rfl⟩
  · rw [talkerPlan_silent fill]; exact ⟨rfl, rfl⟩
  · rw [talkerPlan_pattern fill]; exact ⟨rfl, rfl⟩

theorem talkerPlan_load (e : TxEntry) (es : List TxEntry) : (talkerPlan idle (e :: es) r p).load = some (r.id, r.host) := by
  cases e <;> rfl

end

end Sys2Proof.Machine
end

section
/-! O38: the notice awaiting confirmation (R88). -/

namespace Sys2Proof.Machine
open Sys2Proof.Safety

/-- The state AWAITING_CONFIRMATION_NOTICE leaves where slot 0's start was begun. -/
def awaited (k : Word) (b : BoundaryResult) (s : State) : State :=
  (putSlot (planSlot s b.map b.records 0) (s.onRsc fun c => { c with awaiting := some (.worked k b) })).onFre
    fun f => { f with provisional := (planSlot s b.map b.records 0).traffic }

theorem awaitingStep_due {s : State} {k : Word} {b : BoundaryResult} (sent : s.rsc.awaiting = some (.sent k))
    (result : b = runProcedure k s.ws.queues s.rsc.records) (due : s.fre.slot0Due = true) :
    awaitingStep s = some (awaited k b s) := by
  subst result
  simp only [awaitingStep, sent, due, if_true]
  rfl

theorem awaitingStep_notDue {s : State} {k : Word} {b : BoundaryResult} (sent : s.rsc.awaiting = some (.sent k))
    (result : b = runProcedure k s.ws.queues s.rsc.records) (notDue : s.fre.slot0Due = false) :
    awaitingStep s = some (s.onRsc fun c => { c with awaiting := some (.worked k b) }) := by
  subst result
  simp only [awaitingStep, sent, notDue, Bool.false_eq_true, if_false]

theorem awaited_fre (k : Word) (b : BoundaryResult) (s : State) :
    (awaited k b s).fre = { s.fre with
      txWord := (planSlot s b.map b.records 0).line,
      htxd := (planSlot s b.map b.records 0).line.map (lineBit s.fre.inUse.width 0),
      htxen := (planSlot s b.map b.records 0).line.isSome,
      account := some (planSlot s b.map b.records 0).account, rxWord := none, slot0Due := false,
      provisional := (planSlot s b.map b.records 0).traffic } := by
  rw [awaited, State.onFre_fre, putSlot_fre]
  rfl

/-- Settles O38: slot 0's start is decided as any slot start, on the worked-out map. -/
theorem awaitingNoticeChangesNoRecord : Obligations.AwaitingNoticeChangesNoRecord := by
  intro s k b sent result
  cases due : s.fre.slot0Due with
  | false =>
    obtain ⟨t, next, ports, same⟩ := settle_kept (s := s) (awaitingStep_notDue sent result due) (portsKept_of_ports rfl)
    exact ⟨t, next, ports, same.rsc, same.evu, same.pending, by rw [same.ws]; rfl, by rw [same.ws]; rfl,
      fun _ => ⟨same.fre, same.ws⟩, nofun⟩
  | true =>
    obtain ⟨t, next, ports, same⟩ := settle_kept (s := s) (awaitingStep_due sent result due)
      (portsKept_of_ports (putSlot_ports ..))
    have fre := same.fre.trans (awaited_fre k b s)
    have ws : t.ws = (putSlot (planSlot s b.map b.records 0)
      (s.onRsc fun c => { c with awaiting := some (.worked k b) })).ws := same.ws
    have carries : Carries t (planSlot s b.map b.records 0) := by
      refine ⟨?_, ?_, ?_, ?_⟩ <;> rw [fre]
    have provisional : t.fre.provisional = (planSlot s b.map b.records 0).traffic := by rw [fre]
    refine ⟨t, next, ports, same.rsc.trans (putSlot_rsc ..), same.evu.trans (putSlot_evu ..),
      same.pending.trans (putSlot_pending ..), ?_, ?_, nofun, fun _ => ⟨by rw [fre], fun e at_ =>
        ⟨fun silent => ?_, fun id r p talker found body state port => ?_⟩⟩⟩
    · rw [ws, putSlot_asks]; rfl
    · rw [ws, putSlot_fromFre]; rfl
    · rw [planSlot_silent at_ silent] at carries provisional ws
      exact ⟨carries.undriven rfl, carries.account, provisional, ws.trans (putSlot_ws_of_none rfl)⟩
    · rw [planSlot_talker at_ talker found body state port] at carries provisional ws
      cases entries : entriesOf s.ws.queues id r.host with
      | nil =>
        rw [entries] at carries provisional ws
        obtain ⟨noLoad, traffic⟩ := talkerPlan_empty (idle := s.fre.inUse.idle) (r := r) (p := p)
        have wsSame : t.ws = s.ws := ws.trans (putSlot_ws_of_none noLoad)
        rw [traffic, recordOf_id found] at provisional
        refine ⟨fun _ _ _ => by rw [wsSame], fun _ _ => by rw [State.store, wsSame, State.store], nofun, fun _ =>
          ⟨wsSame, provisional, fun fill => ?_, fun fill => ?_, fun fill => ?_⟩⟩
        · rw [talkerPlan_silent fill] at carries
          exact ⟨carries.undriven rfl, carries.account⟩
        · rw [talkerPlan_pattern fill] at carries
          exact ⟨carries.driven rfl, carries.account⟩
        · rw [talkerPlan_repeatLast fill] at carries
          exact ⟨carries.driven rfl, carries.account⟩
      | cons e es =>
        rw [entries] at carries provisional ws
        have load := talkerPlan_load (idle := s.fre.inUse.idle) (r := r) (p := p) e es
        rw [recordOf_id found] at load
        obtain ⟨left, others, stores, store, free⟩ := (putSlot_loaded (s := s.onRsc _) load entries).of_ws ws
        refine ⟨others, stores, fun e' es' same => ?_, nofun⟩
        cases same
        refine ⟨left, store, free, fun silence => ?_, fun w word => ?_⟩
        · subst silence
          exact ⟨carries.undriven rfl, carries.account, provisional⟩
        · subst word
          rw [talkerPlan, recordOf_id found] at provisional
          exact ⟨carries.driven rfl, carries.account, provisional⟩

end Sys2Proof.Machine
end

section
/-! O42: the start of a slot (R123 to R126). -/

namespace Sys2Proof.Machine
open Sys2Proof.Safety

/-! ### The traffic write (R5, R126) -/

theorem onTalk_id (f : TalkPart → TalkPart) (r : ClaimRec) : (r.onTalk f).id = r.id := by
  unfold ClaimRec.onTalk
  split <;> rfl

theorem onTalk_talk {f : TalkPart → TalkPart} {r : ClaimRec} {p : TalkPart} (body : r.body = .talk p) :
    r.onTalk f = { r with body := .talk (f p) } := by
  simp only [ClaimRec.onTalk, body]

/-- The TALK fields after a word sent. -/
def wordNoted (w : Word) (p : TalkPart) : TalkPart := { p with lastWord := some w }

/-- The TALK fields after an underrun. -/
def underrunNoted (p : TalkPart) : TalkPart :=
  { p with underruns := if p.underruns = 0xFF#8 then 0xFF#8 else p.underruns + 1#8, reported := true }

theorem satByte_eq (n : Byte) : satByte n = if n = 0xFF#8 then 0xFF#8 else n + 1#8 := by
  unfold satByte
  split
  · assumption
  · rfl

theorem applyTraffic_word (k : Word) (id : Nat) (w : Word) (s : State) :
    applyTraffic k (some (.wordSent id w)) s =
      s.onRsc fun c => { c with records := updateRec id (ClaimRec.onTalk (wordNoted w)) c.records } := rfl

theorem applyTraffic_underrun_records (k : Word) (id : Nat) (s : State) :
    (applyTraffic k (some (.underrun id)) s).rsc.records =
      updateRec id (ClaimRec.onTalk underrunNoted) s.rsc.records := by
  have noted : underrunNoted = fun p => { p with underruns := satByte p.underruns, reported := true } := by
    funext p
    rw [underrunNoted, satByte_eq]
  rw [noted]
  simp only [applyTraffic, writeTraffic]
  split
  · split
    · split <;> rfl
    · rfl
  · rfl

/-- UNDERRUN is reported where none was (R126). -/
theorem applyTraffic_underrun_evu {k : Word} {id : Nat} {s : State} {r : ClaimRec} {p : TalkPart}
    (found : recordOf s.rsc.records id = some r) (body : r.body = .talk p) :
    (applyTraffic k (some (.underrun id)) s).evu = { s.evu with
      fromTransmit := s.evu.fromTransmit ++
        if p.reported then [] else [(r.host, ⟨.underrun r.slot, k.setWidth 16⟩)] } := by
  simp only [applyTraffic, writeTraffic, found, body]
  cases p.reported <;> simp [eventFromTransmit, frameField, State.onRsc]

/-! ### The slot start -/

/-- The state SLOT_START leaves. -/
def slotStarted (x : Nat) (s : State) : State :=
  let p := planSlot s s.rsc.map s.rsc.records x
  let t := applyTraffic s.fre.frame p.traffic (putSlot p s)
  if s.fre.slot0Due then t
  else t.onFre fun f =>
    { f with bitPos := f.bitPos + 1, clkHigh := true, hbclk := clockOut f true, hfsync := syncOut f (f.bitPos + 1) }

/-- Apart from the FRE's clock lines, it is the decision put on the lines and its traffic written. -/
theorem slotStarted_rest (x : Nat) (s : State) :
    let p := planSlot s s.rsc.map s.rsc.records x
    let t := applyTraffic s.fre.frame p.traffic (putSlot p s)
    (slotStarted x s).ports = t.ports ∧ (slotStarted x s).rsc = t.rsc ∧ (slotStarted x s).ws = t.ws ∧
      (slotStarted x s).evu = t.evu ∧ (slotStarted x s).pending = t.pending := by
  intro p t
  unfold slotStarted
  dsimp only
  split <;> exact ⟨rfl, rfl, rfl, rfl, rfl⟩

/-- Past slot 0 a slot starts after the sync pulse of either style. -/
theorem syncOut_slotStart {s : State} {x : Nat} (next : nextSlotStart s = some x) (past : s.fre.slot0Due = false) :
    syncOut s.fre (s.fre.bitPos + 1) = if s.fre.inUse.mode = .leader then some false else none := by
  have width : 0 < s.fre.inUse.width := by
    unfold nextSlotStart at next
    rw [if_neg (by simp [past])] at next
    split at next
    · rename_i holds
      refine Nat.pos_of_ne_zero fun zero => ?_
      have inside := (isSlotStart_iff.mp holds.2.1).1
      rw [zero, Nat.mul_zero] at inside
      exact absurd inside (Nat.not_lt_zero _)
    · cases next
  obtain ⟨-, pos, -, at_⟩ := (nextSlotStart_iff width past).mp next
  have beyond : ¬s.fre.bitPos + 1 < s.fre.inUse.width := by
    rw [at_, Nat.not_lt]
    exact Nat.le_mul_of_pos_left _ pos
  rw [syncOut_past]
  simp only [beyond, and_false, decide_false]

theorem slotStarted_fre {s : State} {x : Nat} (next : nextSlotStart s = some x) :
    let p := planSlot s s.rsc.map s.rsc.records x
    (slotStarted x s).fre =
      { s.fre with
        slot0Due := false, rxWord := none, txWord := p.line, htxd := p.line.map (lineBit s.fre.inUse.width 0),
        htxen := p.line.isSome, account := some p.account
        clkHigh := if s.fre.slot0Due then s.fre.clkHigh else true
        bitPos := if s.fre.slot0Due then s.fre.bitPos else s.fre.bitPos + 1
        hbclk := if s.fre.slot0Due then s.fre.hbclk
          else if s.fre.inUse.mode = .leader then some true else none
        hfsync := if s.fre.slot0Due then s.fre.hfsync
          else if s.fre.inUse.mode = .leader then some false else none } := by
  intro p
  unfold slotStarted
  dsimp only
  cases due : s.fre.slot0Due with
  | true =>
    simp only [if_true, applyTraffic_fre, putSlot_fre]
    rfl
  | false =>
    simp only [Bool.false_eq_true, if_false, State.onFre_fre, applyTraffic_fre, putSlot_fre,
      ← syncOut_slotStart next due]
    rfl

theorem slotStartStep_taken {s : State} {x : Nat} (next : nextSlotStart s = some x) (quiet : rscQuiet s = true) :
    slotStartStep s = some (slotStarted x s) := by
  simp only [slotStartStep, next, quiet, if_true]
  rfl

/-- Settles O42. -/
theorem slotStartDecidesTheSlotsWord : Obligations.SlotStartDecidesTheSlotsWord := by
  intro s x next quiet
  obtain ⟨portsSame, rscSame, wsSame, evuSame, pendingSame⟩ := slotStarted_rest x s
  obtain ⟨ports', -, ws', pending', rsc', evu'⟩ := applyTraffic_rest
    (putSlot (planSlot s s.rsc.map s.rsc.records x) s) s.fre.frame (planSlot s s.rsc.map s.rsc.records x).traffic
  obtain ⟨t, ran, ports, same⟩ := settle_kept (s := s) (slotStartStep_taken next quiet)
    (portsKept_of_ports (portsSame.trans (ports'.trans (putSlot_ports ..))))
  have fre := same.fre.trans (slotStarted_fre next)
  have ws : t.ws = (putSlot (planSlot s s.rsc.map s.rsc.records x) s).ws := same.ws.trans (wsSame.trans ws')
  have rsc := same.rsc.trans rscSame
  have evu := same.evu.trans evuSame
  have carries : Carries t (planSlot s s.rsc.map s.rsc.records x) := by
    refine ⟨?_, ?_, ?_, ?_⟩ <;> rw [fre]
  refine ⟨t, ran, ports, same.pending.trans (pendingSame.trans (pending'.trans (putSlot_pending ..))), by rw [fre],
    by rw [ws, putSlot_asks], by rw [ws, putSlot_fromFre], by rw [rsc, rsc', putSlot_rsc], fun e at_ =>
    ⟨fun silent => ?_, fun id r p talker found body state port => ?_⟩⟩
  · rw [planSlot_silent at_ silent] at carries rsc evu ws
    exact ⟨carries.undriven rfl, carries.account, rsc, ws.trans (putSlot_ws_of_none rfl), evu⟩
  · rw [planSlot_talker at_ talker found body state port] at carries rsc evu ws
    have own := recordOf_id found
    have noted (f : TalkPart → TalkPart) (records : t.rsc.records = updateRec id (ClaimRec.onTalk f) s.rsc.records) :
        (∀ id', id' ≠ id → recordOf t.rsc.records id' = recordOf s.rsc.records id') ∧
          recordOf t.rsc.records id = some { r with body := .talk (f p) } := by
      rw [records]
      refine ⟨fun id' other => recordOf_updateRec_ne (onTalk_id f) other, ?_⟩
      rw [recordOf_updateRec_self (onTalk_id f), found, Option.map_some, onTalk_talk body]
    cases entries : entriesOf s.ws.queues id r.host with
    | nil =>
      rw [entries] at carries rsc evu ws
      obtain ⟨noLoad, traffic⟩ := talkerPlan_empty (idle := s.fre.inUse.idle) (r := r) (p := p)
      have wsKept : t.ws = s.ws := ws.trans (putSlot_ws_of_none noLoad)
      rw [traffic, own] at rsc evu
      obtain ⟨others, counted⟩ := noted underrunNoted (by rw [rsc, applyTraffic_underrun_records, putSlot_rsc])
      rw [applyTraffic_underrun_evu (by rw [putSlot_rsc]; exact found) body, putSlot_evu] at evu
      refine ⟨others, fun _ _ _ => by rw [wsKept], fun _ _ => by rw [State.store, wsKept, State.store], nofun, nofun,
        fun _ => ⟨wsKept, fun fill => ?_, fun fill => ?_, fun fill => ?_, counted, evu⟩⟩
      · rw [talkerPlan_silent fill] at carries
        exact ⟨carries.undriven rfl, carries.account⟩
      · rw [talkerPlan_pattern fill] at carries
        exact ⟨carries.driven rfl, carries.account⟩
      · rw [talkerPlan_repeatLast fill] at carries
        exact ⟨carries.driven rfl, carries.account⟩
    | cons e es =>
      rw [entries] at carries rsc evu ws
      have load := talkerPlan_load (idle := s.fre.inUse.idle) (r := r) (p := p) e es
      rw [own] at load
      obtain ⟨left, otherQueues, stores, store, free⟩ := (putSlot_loaded load entries).of_ws ws
      have held : (t.store r.host).held = (s.store r.host).held - 1 := by rw [store]
      cases e with
      | word w =>
        rw [talkerPlan, own] at rsc evu
        rw [applyTraffic_word] at rsc evu
        obtain ⟨others, sent⟩ := noted (wordNoted w) (by rw [rsc, State.onRsc_rsc, putSlot_rsc])
        refine ⟨others, otherQueues, stores, fun w' es' same => ?_, nofun, nofun⟩
        cases same
        exact ⟨carries.driven rfl, carries.account, left, held, free, evu.trans ((State.onRsc_evu ..).trans (putSlot_evu ..)), sent⟩
      | silence =>
        have rscKept : t.rsc = s.rsc := rsc.trans (putSlot_rsc ..)
        refine ⟨fun _ _ => by rw [rscKept], otherQueues, stores, nofun, fun es' same => ?_, nofun⟩
        cases same
        exact ⟨carries.undriven rfl, carries.account, left, held, free, evu.trans (putSlot_evu ..), rscKept⟩

end Sys2Proof.Machine
end

section
/-! O39, O40: the expected sync, and the loss of lock (R88 to R94, R98). -/

namespace Sys2Proof.Machine
open Sys2Proof.Safety

theorem isRunning_of {e : EngineState} (running : e = .running ∨ e = .stopping) : e.isRunning = true := by
  rcases running with rfl | rfl <;> rfl

/-! ### O39: the boundary confirmed -/

theorem frameSyncStep_confirms {s : State} {rxd : Bool} {k : Word} {b : BoundaryResult}
    (mode : s.fre.inUse.mode = .follower) (before : s.fre.prevSync = some false) (high : s.fre.clkHigh = true)
    (worked : s.rsc.awaiting = some (.worked k b)) (engine : s.fre.engine = .running ∨ s.fre.engine = .stopping) :
    frameSyncStep rxd s = some (confirmStep k b rxd s) := by
  have heard : recognised s.fre true = true := recognised_iff.mpr ⟨mode, before, rfl⟩
  rcases engine with engine | engine <;>
    simp only [frameSyncStep, heard, engine, high, worked, if_true]

/-- The state with a worked-out procedure put into effect and frame k open. -/
def confirmed (k : Word) (b : BoundaryResult) (s : State) : State :=
  openFrame k (enact b (s.onRsc fun c => { c with awaiting := none }))

theorem confirmStep_running {k : Word} {b : BoundaryResult} {rxd : Bool} {s : State} (running : s.fre.engine = .running) :
    confirmStep k b rxd s = (applyTraffic k s.fre.provisional (confirmed k b s)).onFre fun f =>
      { f with clkHigh := false, prevSync := some true, provisional := none, rxWord := some (shiftIn none rxd) } := by
  have notStopping : s.fre.engine ≠ .stopping := by rw [running]; nofun
  exact if_neg notStopping

theorem confirmStep_stopping {k : Word} {b : BoundaryResult} {rxd : Bool} {s : State}
    (stopping : s.fre.engine = .stopping) :
    confirmStep k b rxd s =
      closeRun ((confirmed k b s).onFre fun f => { f with clkHigh := false, prevSync := some true }) := if_pos stopping

theorem updateRec_onTalk (id : Nat) (f : TalkPart → TalkPart) (rs : List ClaimRec) {g : ClaimRec → ClaimRec}
    (talk : ∀ r p, r.body = .talk p → g r = if r.id = id then { r with body := .talk (f p) } else r)
    (listen : ∀ r, r.body = .listen → g r = r) : updateRec id (ClaimRec.onTalk f) rs = rs.map g := by
  refine List.map_congr_left fun r _ => ?_
  cases body : r.body with
  | talk p => rw [talk r p body, onTalk_talk body]
  | listen =>
    rw [listen r body]
    simp only [ClaimRec.onTalk, body, ite_self]

/-- Settles O39. -/
theorem expectedSyncConfirmsTheBoundary : Obligations.ExpectedSyncConfirmsTheBoundary := by
  intro s rxd k b mode before high worked engine
  have taken := frameSyncStep_confirms (rxd := rxd) mode before high worked engine
  rcases engine with running | stopping
  · have notStopping : s.fre.engine ≠ .stopping := by rw [running]; nofun
    rw [confirmStep_running running] at taken
    obtain ⟨ports', fre', ws', pending', rsc', evu'⟩ := applyTraffic_rest (confirmed k b s) k s.fre.provisional
    obtain ⟨t, next, ports, same⟩ := settle_kept (s := s) taken (portsKept_of_ports ports')
    have rsc : t.rsc = (applyTraffic k s.fre.provisional (confirmed k b s)).rsc := same.rsc
    have evu : t.evu = (applyTraffic k s.fre.provisional (confirmed k b s)).evu := same.evu
    refine ⟨t, next, ports, by rw [rsc, rsc']; rfl, by rw [evu, evu']; rfl, same.ws.trans ws',
      same.pending.trans pending', fun quiet => ?_, fun _ => ⟨?_, by rw [evu, evu']; rfl, fun id w sent => ?_,
      fun id underrun => ?_⟩, fun stopping => absurd stopping notStopping⟩
    · rw [quiet.resolve_right notStopping] at rsc evu
      exact ⟨by rw [rsc]; rfl, by rw [evu]; rfl⟩
    · rw [same.fre, State.onFre_fre, fre']
      cases rxd <;> rfl
    · rw [sent, applyTraffic_word] at rsc evu
      refine ⟨by rw [evu]; rfl, (congrArg Rsc.records rsc).trans
        (updateRec_onTalk id (wordNoted w) b.records (fun r p body => ?_) fun r body => ?_)⟩
      · simp only [body]; rfl
      · simp only [body]
    · rw [underrun] at rsc evu
      refine ⟨?_, fun r p found body => ?_⟩
      · rw [rsc, applyTraffic_underrun_records]
        refine updateRec_onTalk id underrunNoted b.records (fun r p body => ?_) fun r body => ?_
        · simp only [body]; rfl
        · simp only [body]
      · rw [evu, applyTraffic_underrun_evu (s := confirmed k b s) found body]
        rfl
  · rw [confirmStep_stopping stopping] at taken
    obtain ⟨t, next, ports, same⟩ := settle_kept (s := s) taken (portsKept_of_ports rfl)
    refine ⟨t, next, ports, by rw [same.rsc]; rfl, by rw [same.evu]; rfl, same.ws, same.pending,
      fun _ => ⟨by rw [same.rsc]; rfl, by rw [same.evu]; rfl⟩, fun running => ?_,
      fun _ => ⟨same.fre, by rw [same.evu]; rfl⟩⟩
    rw [stopping] at running
    cases running

/-! ### O40: the loss of lock -/

theorem hostList_mem (g : HostId) : g ∈ hostList := by cases g <;> simp [hostList]

/-- The hosts a loss notice names (R90). -/
theorem mem_lossHosts {s : State} {g : HostId} :
    g ∈ lossHosts s ↔ ∃ e ∈ (frameMap s).1, ∃ id ∈ e.listeners, ∃ r, recordOf (frameMap s).2 id = some r ∧
      r.host = g ∧ r.state ≠ .pendingRelease .discard ∧ (s.port g).state ≠ .detaching := by
  simp only [lossHosts, List.mem_filter, hostList_mem, true_and, List.any_eq_true]
  refine exists_congr fun e => and_congr_right fun _ => exists_congr fun id => and_congr_right fun _ => ?_
  cases found : recordOf (frameMap s).2 id with
  | none => simp
  | some r =>
    simp only [Bool.and_eq_true, decide_eq_true_eq, Bool.not_eq_true', excluded_eq_false, Option.some.injEq,
      exists_eq_left']
    exact ⟨fun ⟨host, state, port⟩ => ⟨host, state, host ▸ port⟩, fun ⟨host, state, port⟩ => ⟨host, state, host ▸ port⟩⟩

/-- The state after a loss of lock at a falling edge with that sample. -/
def lockGone (acq : Option Nat) (sample : Bool) (s : State) : State :=
  (loseLock acq s).onFre fun f => { f with clkHigh := false, prevSync := some sample }

section
variable (acq : Option Nat) (sample : Bool) (s : State)

theorem lockGone_rest :
    (lockGone acq sample s).ports = s.ports ∧ (lockGone acq sample s).rsc = { s.rsc with awaiting := none } ∧
      (lockGone acq sample s).ws = { s.ws with fromFre := s.ws.fromFre ++ [.loss (lossHosts s)] } ∧
      (lockGone acq sample s).pending = s.pending := by
  simp only [lockGone, loseLock]
  split <;> exact ⟨rfl, rfl, rfl, rfl⟩

variable {acq sample s}

theorem lockGone_running (running : s.fre.engine = .running) :
    (lockGone acq sample s).fre = { lockLost s.fre acq with
        slip := if s.fre.slip = 0xFFFF#16 then 0xFFFF#16 else s.fre.slip + 1#16,
        clkHigh := false, prevSync := some sample } ∧
      (lockGone acq sample s).evu = { s.evu with fromFre := s.evu.fromFre ++ engineCopies s .acquiring s.fre.frame } := by
  have notStopping : s.fre.engine ≠ .stopping := by rw [running]; nofun
  rw [← satHalf_eq, lockGone, loseLock]
  dsimp only
  rw [if_neg notStopping]
  exact ⟨rfl, rfl⟩

theorem lockGone_stopping (stopping : s.fre.engine = .stopping) :
    (lockGone acq sample s).fre = { atRest s.fre with
        slip := if s.fre.slip = 0xFFFF#16 then 0xFFFF#16 else s.fre.slip + 1#16,
        clkHigh := false, prevSync := some sample } ∧
      (lockGone acq sample s).evu = { s.evu with fromFre := s.evu.fromFre ++ engineCopies s .stopped s.fre.frame } := by
  rw [← satHalf_eq, lockGone, loseLock]
  dsimp only
  rw [if_pos stopping]
  exact ⟨rfl, rfl⟩

end

/-- Settles O40: an early sync and a missing one both end in the same loss. -/
theorem lossOfLockAbandonsTheFrame : Obligations.LossOfLockAbandonsTheFrame := by
  intro s c rxd sample acq mode engine high which
  have lost : ∃ t, exec c s = .next t ∧ PortsKept s t ∧ SameBlocks (lockGone acq sample s) t := by
    have kept : PortsKept s (lockGone acq sample s) := portsKept_of_ports (lockGone_rest acq sample s).1
    obtain ⟨rfl, before, rfl, quiet, rfl⟩ | ⟨rfl, ⟨k, b, worked⟩, unheard, rfl⟩ := which
    · have heard : recognised s.fre true = true := recognised_iff.mpr ⟨mode, before, rfl⟩
      refine settle_kept (o := frameSyncStep rxd s) ?_ kept
      rcases engine with engine | engine <;>
        simp only [frameSyncStep, heard, engine, high, quiet, if_true] <;> rfl
    · have silent : recognised s.fre sample = false := Bool.eq_false_iff.mpr fun r => unheard (recognised_iff.mp r).2
      refine settle_kept (o := missingSyncStep sample s) ?_ kept
      simp only [missingSyncStep, worked, isRunning_of engine, high, silent, and_self, if_true]
      rfl
  obtain ⟨t, next, ports, same⟩ := lost
  obtain ⟨-, rsc, ws, pending⟩ := lockGone_rest acq sample s
  refine ⟨t, lossHosts s, (frameMap s).1, (frameMap s).2, next, ports, same.rsc.trans rsc, same.ws.trans ws, rfl,
    fun quiet => ?_, fun k b idle waiting result => ?_, fun g => mem_lossHosts, fun running => ?_, fun stopping => ?_,
    same.pending.trans pending⟩
  · rw [frameMap_quiet quiet]
    exact ⟨rfl, rfl⟩
  · rw [frameMap_notice idle waiting, result]
    exact ⟨rfl, rfl⟩
  · rw [same.fre, same.evu]
    exact lockGone_running running
  · rw [same.fre, same.evu]
    exact lockGone_stopping stopping

end Sys2Proof.Machine
end
